-- ==== Sys2Proof/Word.lean ====
section
/-!
DEFINITION. The word types of the block: u32, u64 and the byte lanes of the bus (00_scope.md R10, 20_memory.md R53).
-/

namespace Sys2Proof

/-- An unsigned 32-bit word, the u32 of 00_scope.md R10: `+`, `-`, `*` and `<<<` of `BitVec 32` are the wrapping
operators of that rule, `>>>` its logical right shift. -/
abbrev Word := BitVec 32

/-- One byte lane of a bus word (20_memory.md R53). -/
abbrev Byte := BitVec 8

/-- An unsigned 64-bit value, the u64 of the integer seed (10_state.md R24, R32). -/
abbrev DWord := BitVec 64

end Sys2Proof
end

