-- ==== Sys2Proof/Config.lean ====
section
/-!
DEFINITION. The implementation parameters (00_scope.md R7) and the free values: what the spec lets the hardware answer
and does not say (the draws of 20_memory.md R54).
-/

namespace Sys2Proof

/-- INT_SEED_ALG (00_scope.md R7): which integer recurrence INIT_INT takes (41_seeding.md R102). -/
inductive IntSeedAlg where
  /-- The recurrence of 41_seeding.md R100. -/
  | genrand
  /-- The recurrence of 41_seeding.md R101. -/
  | lcg69069
deriving DecidableEq, Repr

/-- FLOAT_POLICY (45_host_float.md R180): the Host's mapping of a word to a binary64 value. -/
inductive FloatPolicy where
  /-- (w + 0.5) / 2^32, 45_host_float.md R181. -/
  | open01
  /-- w / 2^32, 45_host_float.md R182. -/
  | halfOpen01
  /-- w / (2^32 - 1), 45_host_float.md R183. -/
  | closed01
deriving DecidableEq, Repr

/-- The implementation parameters of 00_scope.md R7 on which a step or the Host's mapping depends. A block has one
configuration for life: State holds it and no step changes it. DESIGN CHOICE, safe: log entry 13. The fourth parameter
of R7, BASE, is OPEN: it is an argument of the accesses at a byte address of the Host's bus (log entry 5). -/
structure Config where
  /-- INT_SEED_ALG. -/
  intSeedAlg : IntSeedAlg
  /-- KEY_MAX, the number of words of the key RAM. -/
  keyMax : Nat
  /-- FLOAT_POLICY, the Host's, outside the block. -/
  floatPolicy : FloatPolicy
deriving DecidableEq, Repr

/-- `draw` (00_scope.md R11): the 32-bit value the n-th draw of the run returns, for a read of OUT, ORIG_SEED_LO,
ORIG_SEED_HI, TWISTS or a state-window word while BUSY = 1 (20_memory.md R54, R57). Free: no body. DESIGN CHOICE,
safe: log entry 3. -/
opaque Config.drawWord : Nat → Word

/-- `draw10` (20_memory.md R54): STATUS.CURSOR as the n-th draw of the run shows it while BUSY = 1. Free. DESIGN
CHOICE, safe: log entry 3. -/
opaque Config.drawCursor : Nat → BitVec 10

/-- `draw1` (20_memory.md R54): STATUS.SRC as the n-th draw of the run shows it while BUSY = 1. Free. DESIGN CHOICE,
safe: log entry 3. -/
opaque Config.drawSrc : Nat → Bool

/-- `draw1` (20_memory.md R54): STATUS.SEEDED as the n-th draw of the run shows it while BUSY = 1. Free. DESIGN
CHOICE, safe: log entry 3. -/
opaque Config.drawSeeded : Nat → Bool

end Sys2Proof
end

