-- ==== Sys2Proof/Syntax.lean ====
section
/-!
DEFINITION. The commands of the block, one constructor per row of spec/opcode_table.json (30_encoding.md R82).
-/

namespace Sys2Proof

/-- A command. No command word carries an immediate, a register number or a mode (30_encoding.md R81): every command
takes its operands from fixed registers, so no constructor has an argument. -/
inductive Instr where
  /-- SEED: seed from the integer SEED_HI:SEED_LO (41_seeding.md R103). -/
  | seed
  /-- SEEDA: seed from the key words KEY[0..KEYLEN-1] (41_seeding.md R110). -/
  | seeda
  /-- NEXT: extract one tempered word (43_extract.md R151). -/
  | next
  /-- CLRERR: clear the command error code (44_control.md R170). -/
  | clrerr
deriving DecidableEq, Repr

end Sys2Proof
end

