-- ==== Sys2Proof/Machine/HostSyntax.lean ====
section
/-!
DEFINITION. What the Host does, as data: the registers it names (10_state.md R38), the statements of its program
(30_encoding.md R87, R88), the transactions it makes, and the moves of the two agents and of the reset input
(00_scope.md R8, 60_exceptions.md R209, 70_reset_and_hazards.md R230).
-/

namespace Sys2Proof.Machine

/-- The width of a Host access; only 32 bits is served (20_memory.md R52). -/
inductive Width where
  | w8 | w16 | w32 | w64
deriving DecidableEq, Repr

/-- The registers of the register map (10_state.md R38). -/
inductive Reg where
  | cmd | status | seedLo | seedHi | keyLen | out | origSeedLo | origSeedHi | twists | id | keyMax
deriving DecidableEq, Repr

/-- The offset of a register in the window (10_state.md R38). -/
def Reg.offset : Reg → Nat
  | .cmd => 0x000
  | .status => 0x004
  | .seedLo => 0x008
  | .seedHi => 0x00C
  | .keyLen => 0x010
  | .out => 0x014
  | .origSeedLo => 0x018
  | .origSeedHi => 0x01C
  | .twists => 0x020
  | .id => 0x024
  | .keyMax => 0x028

/-- The register at an offset, if one is there (10_state.md R38). -/
def regAt (off : Nat) : Option Reg :=
  match off with
  | 0x000 => some .cmd
  | 0x004 => some .status
  | 0x008 => some .seedLo
  | 0x00C => some .seedHi
  | 0x010 => some .keyLen
  | 0x014 => some .out
  | 0x018 => some .origSeedLo
  | 0x01C => some .origSeedHi
  | 0x020 => some .twists
  | 0x024 => some .id
  | 0x028 => some .keyMax
  | _ => none

/-- A statement of a Host program after assembly (30_encoding.md R87, R88). Offsets are relative to BASE. The width is
the width of the bus access: the statements of R88 are all 32 bits wide, and the other widths are here because the bus
can ask for them and the block answers BusError (20_memory.md R52). -/
inductive Stmt where
  /-- `wr`: HostWrite(off, v). -/
  | wr (w : Width) (off : Nat) (v : Word)
  /-- `rd`: r <- HostRead(off). -/
  | rd (w : Width) (off : Nat)
  /-- `bbusy`: go to the statement at `target` if r[0] = 1. -/
  | bbusy (target : Nat)
deriving DecidableEq, Repr

/-- One bus transaction (30_encoding.md R87): a write (W, off, data) or a read (R, off) with its returned data. -/
inductive Txn where
  | write (off : Nat) (v : Word)
  | read (off : Nat) (v : Word)
deriving DecidableEq, Repr

/-- Who moves: one of the two agents (00_scope.md R8), or the platform asserting reset (70_reset_and_hazards.md R230).
-/
inductive Move where
  | host
  | engine
  | reset
deriving DecidableEq, Repr

end Sys2Proof.Machine
end

