-- ==== Sys2Proof/WellFormed.lean ====
section
/-!
DEFINITION. What the spec asks of a command, of a configuration and of a Host program before it runs.
-/

namespace Sys2Proof

/-- Every command is well formed: it has no operand field (30_encoding.md R81). -/
def Instr.wf : Instr → Bool
  | .seed => true
  | .seeda => true
  | .next => true
  | .clrerr => true

/-- A configuration is one of 00_scope.md R7: 1 <= KEY_MAX <= 1024. -/
def Config.wf (c : Config) : Bool := decide (1 ≤ c.keyMax) && decide (c.keyMax ≤ 1024)

/-- A statement asks only for accesses that 20_memory.md R52 allows inside the window, and a `bbusy` goes to a
statement of the same program, whose length is `len` (30_encoding.md R88). -/
def Machine.Stmt.wf (len : Nat) : Machine.Stmt → Bool
  | .wr w off _ => decide (w = .w32) && decide (off < 0x4000) && decide (off % 4 = 0)
  | .rd w off => decide (w = .w32) && decide (off < 0x4000) && decide (off % 4 = 0)
  | .bbusy target => decide (target < len)

/-- Every statement of the program is well formed in it. -/
def Machine.progWf (p : List Machine.Stmt) : Bool := p.all (Machine.Stmt.wf p.length)

end Sys2Proof
end

