-- ==== Sys2Proof/Decode.lean ====
section
/-!
DEFINITION. The command word: its fields (30_encoding.md R80), the decoder, total on every word and on any bytes (R83,
R84), and the encoder written from the opcode map (R82). Byte order: 20_memory.md R53.
-/

namespace Sys2Proof

/-- Why a command word is illegal (30_encoding.md R83). -/
inductive Illegal where
  /-- Fewer than four bytes: no command word is shorter than 32 bits (30_encoding.md R80). -/
  | truncated
  /-- RSV is not 0. -/
  | reservedBits
  /-- OP is 0x00 or lies in 0x05 to 0xFF. -/
  | reservedOpcode
deriving DecidableEq, Repr

/-- OP, bits 7:0 (30_encoding.md R80). -/
def opField (cw : Word) : BitVec 8 := cw.extractLsb' 0 8

/-- RSV, bits 31:8 (30_encoding.md R80). -/
def rsvField (cw : Word) : BitVec 24 := cw.extractLsb' 8 24

/-- Decode (30_encoding.md R84); ILLEGAL carries its reason. -/
def decodeWord (cw : Word) : Except Illegal Instr :=
  if rsvField cw ≠ 0 then .error .reservedBits
  else if opField cw = 0x01 then .ok .seed
  else if opField cw = 0x02 then .ok .seeda
  else if opField cw = 0x03 then .ok .next
  else if opField cw = 0x04 then .ok .clrerr
  else .error .reservedOpcode

/-- The word on the four byte lanes b0 (bits 7:0) to b3 (bits 31:24): little-endian (20_memory.md R53). -/
def wordOfBytes (b0 b1 b2 b3 : Byte) : Word := b3 ++ b2 ++ b1 ++ b0

/-- Byte lane k of a word, bits 8k+7:8k (20_memory.md R53). -/
def laneOf (w : Word) (k : Nat) : Byte := w.extractLsb' (8 * k) 8

/-- The decoder on bytes as the hardware lays a word out: one command and the bytes after it. -/
def decode : List Byte → Except Illegal (Instr × List Byte)
  | b0 :: b1 :: b2 :: b3 :: rest =>
    match decodeWord (wordOfBytes b0 b1 b2 b3) with
    | .ok i => .ok (i, rest)
    | .error e => .error e
  | _ => .error .truncated

/-- The command word of a command (30_encoding.md R82). -/
def encode : Instr → Word
  | .seed => 0x00000001
  | .seeda => 0x00000002
  | .next => 0x00000003
  | .clrerr => 0x00000004

/-- The four bytes of a word in lane order. -/
def bytesOfWord (w : Word) : List Byte := [laneOf w 0, laneOf w 1, laneOf w 2, laneOf w 3]

/-- The bytes of a command, as the decoder reads them. -/
def encodeBytes (i : Instr) : List Byte := bytesOfWord (encode i)

/-- The word `w` of a row of `nbits` bits, as a 32-bit command word: every bit at or above `nbits` is 0. -/
def tableWord (nbits w : Nat) : Word := BitVec.ofNat 32 (w % 2 ^ nbits)

/-- The command the decoder reads from a row of spec/opcode_table.json whose bits are `w`. -/
def decodeTableWord (nbits w : Nat) : Option Instr :=
  match decode (bytesOfWord (tableWord nbits w)) with
  | .ok (i, _) => some i
  | .error _ => none

end Sys2Proof
end

