-- ==== Sys2Proof/Machine/Constants.lean ====
section
/-!
DEFINITION. The algorithm constants of 00_scope.md R6 and this hardware's values of the parameters of R7. N = 624
(words in the state array) and M = 397 (the middle distance of the twist) stand as numerals where the rules write
them.
-/

namespace Sys2Proof.Machine

/-- UPPER_MASK: the top bit of a word (00_scope.md R6). -/
def upperMask : Word := 0x80000000

/-- LOWER_MASK: the low 31 bits of a word (00_scope.md R6). -/
def lowerMask : Word := 0x7FFFFFFF

/-- MATRIX_A, which is MAG[1] (00_scope.md R6). -/
def matrixA : Word := 0x9908B0DF

/-- MAG, the two-entry table {0, MATRIX_A}, indexed by one bit (00_scope.md R6, 10_state.md R43). -/
def mag (odd : Bool) : Word := if odd then matrixA else 0

/-- T_B: the mask of the second temper step (00_scope.md R6). -/
def temperB : Word := 0x9D2C5680

/-- T_C: the mask of the third temper step (00_scope.md R6). -/
def temperC : Word := 0xEFC60000

/-- F_INIT: the multiplier of INIT_GENRAND (00_scope.md R6, 90_conflicts.md C1). -/
def fInit : Word := 1812433253

/-- LCG_MUL: the multiplier of INIT_LCG69069 (00_scope.md R6). -/
def lcgMul : Word := 69069

/-- BOOT_SEED: the bootstrap seed of array seeding (00_scope.md R6, 90_conflicts.md C3). -/
def bootSeed : Word := 19650218

/-- A_MUL1: the pass-1 multiplier (00_scope.md R6). -/
def aMul1 : Word := 1664525

/-- A_MUL2: the pass-2 multiplier (00_scope.md R6). -/
def aMul2 : Word := 1566083941

/-- A_FORCE: the value forced into MT[0] after pass 2 (00_scope.md R6, 90_conflicts.md C4). -/
def aForce : Word := 0x80000000

/-- The ID register's value, "MT19" (10_state.md R34). -/
def idValue : Word := 0x4D543139

/-- This hardware's parameters (00_scope.md R7): GENRAND, KEY_MAX = 624, OPEN01. BASE is open (log entry 5). -/
def hw : Config where
  intSeedAlg := .genrand
  keyMax := 624
  floatPolicy := .open01

/-- BASE, the byte address of the window on the Host's bus (20_memory.md R50): the multiple of 0x4000 at which the
platform has placed it, given by its page number. DESIGN CHOICE, safe: log entry 5. -/
def base (page : Nat) : Nat := 0x4000 * page

end Sys2Proof.Machine
end

