-- ==== Sys2Proof/Machine/State.lean ====
section
/-!
DEFINITION. The state of the block (10_state.md R20 to R36), of the Host agent (30_encoding.md R87) and of the model,
the reasons a step can stop, and the state right after reset (70_reset_and_hazards.md R230).
-/

namespace Sys2Proof.Machine

/-- The command error codes that are ever produced (60_exceptions.md R201; codes 5 to 15 never are, U6). -/
inductive ErrCode where
  /-- 0, NONE. -/
  | noError
  /-- 1, INVALID_SEED. -/
  | invalidSeed
  /-- 2, NOT_SEEDED. -/
  | notSeeded
  /-- 3, ILLEGAL_CMD. -/
  | illegalCmd
  /-- 4, BUSY_ERR. -/
  | busyErr
deriving DecidableEq, Repr

/-- Why a run is faulted. A fault is never an error code of the hardware and never sets ERR (60_exceptions.md R218).
-/
inductive Fault where
  /-- BusError(off) (60_exceptions.md R207), raised by hostRead and hostWrite for a width that is not 32 bits, a
  misaligned or reserved offset, or a write to a read-only location. The hardware answers an error response and
  changes no state; the model stops the run (R12). DEDUCED, safe: log entry 8. -/
  | busError (off : Nat)
  /-- A Host read of KEY[i] never written since reset (20_memory.md R56), raised by hostRead. DEDUCED, safe: log entry
  9. -/
  | unwrittenKeyRead (i : Nat)
  /-- SEEDA completing with a key word below KEYLEN unwritten (41_seeding.md R110), raised by execSeeda. DEDUCED,
  safe: log entry 9. KEY[j] is the first such word, where the spec does not say which is named: DESIGN CHOICE, safe:
  log entry 9. -/
  | unwrittenKeyUse (j : Nat)
  /-- A Host read of MT[i] while it is UNWRITTEN and BUSY = 0 (20_memory.md R57), raised by hostRead. DEDUCED, safe:
  log entry 9. -/
  | unseededStateRead (i : Nat)
  /-- NEXT completing on an UNWRITTEN word of MT, raised by execNext. No reachable state raises it: NEXT is refused
  while SEEDED = 0 (60_exceptions.md R203). DESIGN CHOICE, safe: log entry 10. -/
  | unwrittenStateUse
  /-- SEEDA completing with KEYLEN = 0 or KEYLEN > KEY_MAX, raised by execSeeda. No reachable state raises it: the
  issue check of 30_encoding.md R89 and the frozen operands of 10_state.md R28 exclude it. DESIGN CHOICE, safe: log
  entry 10. -/
  | keyLengthAtCompletion
  /-- BUSY = 1 with PENDING = NONE at an Engine step, raised by engineMove. No reachable state raises it (10_state.md
  R28). DESIGN CHOICE, safe: log entry 10. -/
  | noPending
deriving DecidableEq, Repr

/-- Why an access has no meaning in the model. -/
inductive Refusal where
  /-- An instruction without a meaning yet; raised by no arm of exec: every command has its meaning. Safe. -/
  | notModelled (mnemonic : String)
  /-- A Host access at an offset outside the window, raised by hostRead and hostWrite: it does not reach the block and
  is the platform's concern (20_memory.md R51). DEDUCED, safe: log entry 8. -/
  | outsideWindow (off : Nat)
deriving DecidableEq, Repr

/-- The bytes behind the key window: (offset, byte) cells, offsets strictly rising. An unlisted byte has no value: it
is UNWRITTEN (10_state.md R36, R42). DESIGN CHOICE, safe: log entry 4. -/
abbrev Memory := List Host.Cell

/-- The whole modelled system. The first fourteen fields are the tuple of 10_state.md R20, the next four are the
Host's (30_encoding.md R87), then come two fields of the model's own and the configuration (00_scope.md R7). -/
structure State where
  /-- MT, the state array of 624 words, each a u32 or UNWRITTEN (10_state.md R21); `none` is UNWRITTEN. -/
  mt : List (Option Word)
  /-- CURSOR (10_state.md R23). -/
  cursor : BitVec 10
  /-- ORIG_SEED (10_state.md R24). -/
  origSeed : DWord
  /-- SEEDED (10_state.md R25). -/
  seeded : Bool
  /-- SRC, true for the array path (10_state.md R26). -/
  src : Bool
  /-- BUSY (10_state.md R27). -/
  busy : Bool
  /-- PENDING, `none` for NONE (10_state.md R28). -/
  pending : Option Instr
  /-- ERR (10_state.md R29). -/
  err : ErrCode
  /-- OUT (10_state.md R30). -/
  out : Word
  /-- TWISTS (10_state.md R31). -/
  twists : Word
  /-- SEED_LO (10_state.md R32). -/
  seedLo : Word
  /-- SEED_HI (10_state.md R32). -/
  seedHi : Word
  /-- KEYLEN (10_state.md R33). -/
  keyLen : Word
  /-- KEY, the key RAM (10_state.md R36). -/
  key : Memory
  /-- The Host's program (30_encoding.md R87). -/
  prog : List Stmt
  /-- The Host's position in its program, its program counter (30_encoding.md R87). -/
  pos : Nat
  /-- The Host's register r, the value of its last read (30_encoding.md R87). -/
  r : Word
  /-- The bus transactions made so far, oldest first; the values read are the program's observation (30_encoding.md
  R87). -/
  trace : List Txn
  /-- The moves still ordered from outside, next first (60_exceptions.md R209). DESIGN CHOICE, unsafe: log entry 2. -/
  sched : List Move
  /-- How many draws the run has taken. DESIGN CHOICE, safe: log entry 3. -/
  draws : Nat
  /-- The configuration (00_scope.md R7), which no step changes. DESIGN CHOICE, safe: log entry 13. -/
  config : Config
deriving DecidableEq, Repr

/-- The state array of which no word was written yet (10_state.md R21): 624 words, every one UNWRITTEN. -/
def blankArray : List (Option Word) := List.replicate 624 none

/-- Right after reset (70_reset_and_hazards.md R230; 10_state.md R21 to R36). DESIGN CHOICE for what is not the
block's: no Host program placed (log entry 6, unsafe), r = 0 (log entry 7, unsafe), nothing ordered from outside (log
entry 2, unsafe) and no draw taken (log entry 3, safe). -/
def State.reset : State where
  mt := blankArray
  cursor := 624
  origSeed := 0
  seeded := false
  src := false
  busy := false
  pending := none
  err := .noError
  out := 0
  twists := 0
  seedLo := 0
  seedHi := 0
  keyLen := 0
  key := []
  prog := []
  pos := 0
  r := 0
  trace := []
  sched := []
  draws := 0
  config := hw

end Sys2Proof.Machine
end

