-- ==== Sys2Proof/Machine/Ops.lean ====
section
/-!
DEFINITION. The named operations over the state: chaining of outcomes, the key RAM, the state array, recording an
error (60_exceptions.md R206, the one thing an error does: R210), accepting and completing a command (30_encoding.md
R89, R90), the Host's own updates, and hardware reset (70_reset_and_hazards.md R230).
-/

namespace Sys2Proof.Machine

/-- The outcome of a step or of an access that also answers a value. -/
abbrev Result (α : Type) := Host.Outcome α Fault Refusal

/-- Go on with the next state, or stop as the first part stopped. -/
def andThen {α β : Type} (o : Result α) (f : α → Result β) : Result β :=
  match o with
  | .next a => f a
  | .fault e => .fault e
  | .refused e => .refused e

/-! ## The key RAM -/

/-- The byte at an offset, if one was ever written there. -/
def Memory.readByte : Memory → Nat → Option Byte
  | [], _ => none
  | (b, u) :: m, a => if a = b then some u else Memory.readByte m a

/-- Write one byte, keeping the offsets strictly rising. -/
def Memory.writeByte : Memory → Nat → Byte → Memory
  | [], a, v => [(a, v)]
  | (b, u) :: m, a, v =>
    if a < b then (a, v) :: (b, u) :: m
    else if a = b then (a, v) :: m
    else (b, u) :: Memory.writeByte m a v

/-- The canonical form: offsets strictly rising. Every listed byte has a value and an unlisted one has none, so no
entry equals what an unlisted offset reads as. -/
def Memory.wf : Memory → Bool
  | [] => true
  | (a, _) :: m =>
    (match m with
      | [] => true
      | (b, _) :: _ => decide (a < b)) && Memory.wf m

/-- The word on the four byte lanes at an offset (20_memory.md R53); UNWRITTEN if any of them is. -/
def Memory.readWord (m : Memory) (a : Nat) : Option Word :=
  match m.readByte a, m.readByte (a + 1), m.readByte (a + 2), m.readByte (a + 3) with
  | some b0, some b1, some b2, some b3 => some (wordOfBytes b0 b1 b2 b3)
  | _, _, _, _ => none

/-- Write a word on its four byte lanes (20_memory.md R53). -/
def Memory.writeWord (m : Memory) (a : Nat) (v : Word) : Memory :=
  (((m.writeByte a (laneOf v 0)).writeByte (a + 1) (laneOf v 1)).writeByte (a + 2) (laneOf v 2)).writeByte (a + 3)
    (laneOf v 3)

/-- The offset of KEY[i] (20_memory.md R56). -/
def keyOffset (i : Nat) : Nat := 0x1000 + 4 * i

/-- KEY[i], `none` if UNWRITTEN (10_state.md R36). -/
def keyWord (s : State) (i : Nat) : Option Word := s.key.readWord (keyOffset i)

/-! ## The state array -/

/-- MT[i], `none` if UNWRITTEN (10_state.md R21). -/
def mtWord (s : State) (i : Nat) : Option Word := (s.mt[i]?).join

/-- All the words of a list, if none of them is UNWRITTEN. -/
def allWritten : List (Option Word) → Option (List Word)
  | [] => some []
  | none :: _ => none
  | some w :: l =>
    match allWritten l with
    | none => none
    | some ws => some (w :: ws)

/-- The whole state array, if all its 624 words are written. -/
def mtArray (s : State) : Option (List Word) :=
  if s.mt.length = 624 then allWritten s.mt else none

/-- Word i of an array of words, as the pseudocode's `A[i]`. Only used for i below the length; the 0 is never read. -/
def word (A : List Word) (i : Nat) : Word := A.getD i 0

/-! ## Errors, acceptance and completion -/

/-- seterr(c): record the first command error and keep it (60_exceptions.md R206). -/
def State.seterr (c : ErrCode) (s : State) : State :=
  { s with err := if s.err = .noError then c else s.err }

/-- Acceptance of a command (30_encoding.md R89): BUSY <- 1, PENDING <- op. -/
def State.accept (i : Instr) (s : State) : State :=
  { s with busy := true, pending := some i }

/-- The end of an Engine step (30_encoding.md R90): BUSY <- 0, PENDING <- NONE. -/
def State.complete (s : State) : State :=
  { s with busy := false, pending := none }

/-! ## What the commands write -/

/-- What both seeding commands write (41_seeding.md R103, R110): the whole state array, CURSOR = 624, ORIG_SEED,
SEEDED, SRC, and OUT = TWISTS = 0. -/
def State.loadSeeded (A : List Word) (orig : DWord) (array : Bool) (s : State) : State :=
  { s with
    mt := A.map some
    cursor := 624
    origSeed := orig
    seeded := true
    src := array
    out := 0
    twists := 0 }

/-- What a twist leaves (42_twist.md R132): the new state array, CURSOR = 0, TWISTS one more modulo 2^32. -/
def State.afterTwist (A : List Word) (s : State) : State :=
  { s with mt := A.map some, cursor := 0, twists := s.twists + 1 }

/-- What an extraction writes (43_extract.md R151): CURSOR one more, OUT the tempered word. -/
def State.extracted (w : Word) (s : State) : State :=
  { s with cursor := s.cursor + 1, out := w }

/-- ERR <- 0 (44_control.md R170). -/
def State.clearErr (s : State) : State := { s with err := .noError }

/-! ## What Host writes store -/

/-- SEED_LO <- v (20_memory.md R55). -/
def State.setSeedLo (v : Word) (s : State) : State := { s with seedLo := v }

/-- SEED_HI <- v (20_memory.md R55). -/
def State.setSeedHi (v : Word) (s : State) : State := { s with seedHi := v }

/-- KEYLEN <- v (20_memory.md R55). -/
def State.setKeyLen (v : Word) (s : State) : State := { s with keyLen := v }

/-- KEY[i] <- v, which makes the word written (20_memory.md R56). -/
def State.setKey (i : Nat) (v : Word) (s : State) : State :=
  { s with key := s.key.writeWord (keyOffset i) v }

/-! ## Draws, and the Host's own data -/

/-- One draw is taken: the next one is a fresh free value. -/
def State.tick (s : State) : State := { s with draws := s.draws + 1 }

/-- The Host has made the transaction W off, v and goes on to its next statement (30_encoding.md R87). -/
def State.wrote (off : Nat) (v : Word) (s : State) : State :=
  { s with trace := s.trace ++ [.write off v], pos := s.pos + 1 }

/-- The Host has made the transaction R off with the data v, which go to r (30_encoding.md R87). -/
def State.didRead (off : Nat) (v : Word) (s : State) : State :=
  { s with trace := s.trace ++ [.read off v], r := v, pos := s.pos + 1 }

/-- The Host goes to the statement at a position. -/
def State.goTo (p : Nat) (s : State) : State := { s with pos := p }

/-- The Host is at the first statement of the program `p` (30_encoding.md R87). -/
def State.withProgram (p : List Stmt) (s : State) : State := { s with prog := p, pos := 0 }

/-- The moves still ordered from outside are `l`. -/
def State.withSched (l : List Move) (s : State) : State := { s with sched := l }

/-- The values read so far, which are the observation of the Host's program (30_encoding.md R87). -/
def observation : List Txn → List Word
  | [] => []
  | .write _ _ :: l => observation l
  | .read _ v :: l => v :: observation l

/-! ## Hardware reset -/

/-- The reset input (70_reset_and_hazards.md R230): every state item of the block takes its reset value, the pending
command is discarded with any part of its effect, and the configuration stays. The Host's own data and the order of
moves are not the block's and stay too. DESIGN CHOICE, unsafe: log entry 2. -/
def State.hardwareReset (s : State) : State :=
  { State.reset with
    prog := s.prog
    pos := s.pos
    r := s.r
    trace := s.trace
    sched := s.sched
    draws := s.draws
    config := s.config }

end Sys2Proof.Machine
end

