-- ==== Sys2Proof/Machine/Control.lean ====
section
/-!
DEFINITION. The control command CLRERR (44_control.md).
-/

namespace Sys2Proof.Machine

/-- PerformCLRERR (44_control.md R170). -/
def performClrerr (s : State) : State := s.clearErr

/-- CLRERR (44_control.md R170). Issued while BUSY = 0 it is accepted (30_encoding.md R89); while BUSY = 1 it is the
pending command and the Engine completes it (R90). -/
def execClrerr (s : State) : Result State :=
  if s.busy then .next (performClrerr s).complete else .next (s.accept .clrerr)

end Sys2Proof.Machine
end

