-- ==== Sys2Proof/Machine/Twist.lean ====
section
/-!
DEFINITION. TWIST, the state regenerator (42_twist.md), an internal operation that only NEXT runs (R132). Beside it
the two evaluation orders that R136 names as not conforming, so that statements can compare them; no command runs
those.
-/

namespace Sys2Proof.Machine

/-- TW, the one-word twist function (42_twist.md R133). -/
def twistWord (a b c : Word) : Word :=
  let y := (a &&& upperMask) ||| (b &&& lowerMask)
  c ^^^ (y >>> 1) ^^^ mag (y.getLsbD 0)

/-- One step of TWIST at index k, reading the current contents of the array (42_twist.md R130). -/
def twistStep (A : List Word) (k : Nat) : List Word :=
  A.set k (twistWord (word A k) (word A ((k + 1) % 624)) (word A ((k + 397) % 624)))

/-- TWIST: k = 0 to 623, ascending, in place (42_twist.md R130). -/
def twist (A : List Word) : List Word := (List.range 624).foldl twistStep A

/-- Not conforming (42_twist.md R136): every read comes from the pre-twist array. -/
def twistAllOld (A : List Word) : List Word :=
  (List.range 624).map fun k =>
    twistWord (word A k) (word A ((k + 1) % 624)) (word A ((k + 397) % 624))

/-- Not conforming (42_twist.md R136): the last word uses the pre-twist MT[0]. -/
def twistOldFirst (A : List Word) : List Word :=
  let B := (List.range 623).foldl twistStep A
  B.set 623 (twistWord (word B 623) (word A 0) (word B 396))

end Sys2Proof.Machine
end

