-- ==== Sys2Proof/Machine/Extract.lean ====
section
/-!
DEFINITION. The tempering and extraction pipeline (43_extract.md): TEMPER and the command NEXT.
-/

namespace Sys2Proof.Machine

/-- TEMPER (43_extract.md R150). -/
def temper (y : Word) : Word :=
  let y := y ^^^ (y >>> 11)
  let y := y ^^^ ((y <<< 7) &&& temperB)
  let y := y ^^^ ((y <<< 15) &&& temperC)
  y ^^^ (y >>> 18)

/-- The extraction at the cursor: read MT[CURSOR], advance CURSOR, OUT <- TEMPER (43_extract.md R151). -/
def extract (s : State) : Result State :=
  match mtWord s s.cursor.toNat with
  | none => .fault .unwrittenStateUse
  | some y => .next (s.extracted (temper y))

/-- PerformNEXT (43_extract.md R151): twist first when CURSOR >= 624 (42_twist.md R132), then extract. -/
def performNext (s : State) : Result State :=
  if 624 ≤ s.cursor.toNat then
    match mtArray s with
    | none => .fault .unwrittenStateUse
    | some A => extract (s.afterTwist (twist A))
  else extract s

/-- NEXT (43_extract.md R151). Issued while BUSY = 0: refused with NOT_SEEDED while SEEDED = 0 (30_encoding.md R89).
While BUSY = 1 the Engine completes it (R90). -/
def execNext (s : State) : Result State :=
  if s.busy then andThen (performNext s) fun t => .next t.complete
  else if s.seeded then .next (s.accept .next)
  else .next (s.seterr .notSeeded)

end Sys2Proof.Machine
end

