-- ==== Sys2Proof/Machine/Operands.lean ====
section
/-!
DEFINITION. The operands the commands take from fixed registers (30_encoding.md R81): the integer seed of SEED and the
key of SEEDA.
-/

namespace Sys2Proof.Machine

/-- S = SEED_HI : SEED_LO (10_state.md R32, 41_seeding.md R103). -/
def seedOperand (s : State) : DWord := s.seedHi ++ s.seedLo

/-- S[31:0] (41_seeding.md R103). -/
def lowWord (S : DWord) : Word := S.extractLsb' 0 32

/-- S[63:32] (10_state.md R24). -/
def highWord (S : DWord) : Word := S.extractLsb' 32 32

/-- SEEDA's check of L = KEYLEN: 1 <= L <= KEY_MAX (30_encoding.md R89, 60_exceptions.md R202). -/
def keyLenOk (c : Config) (L : Word) : Bool := decide (1 ≤ L.toNat) && decide (L.toNat ≤ c.keyMax)

/-- KEY[j] to KEY[j+n-1], if every one of them is written; otherwise the index of the first that is not (DESIGN
CHOICE, safe: log entry 9). -/
def keyWordsFrom (s : State) (j : Nat) : Nat → Except Nat (List Word)
  | 0 => .ok []
  | n + 1 =>
    match keyWord s j with
    | none => .error j
    | some w =>
      match keyWordsFrom s (j + 1) n with
      | .error k => .error k
      | .ok ws => .ok (w :: ws)

/-- The key operand KEY[0..KEYLEN-1] of SEEDA, if every word of it is written (41_seeding.md R110); otherwise the
index of the first word of it that is UNWRITTEN, so that the fault names an access (60_exceptions.md R218); that it is
the first: DESIGN CHOICE, safe: log entry 9. -/
def keyOperand (s : State) : Except Nat (List Word) := keyWordsFrom s 0 s.keyLen.toNat

end Sys2Proof.Machine
end

