-- ==== Sys2Proof/Machine/Seeding.lean ====
section
/-!
DEFINITION. The seed initialization engine (41_seeding.md): the integer recurrences, array seeding, and the commands
SEED and SEEDA.
-/

namespace Sys2Proof.Machine

/-- One step of INIT_GENRAND: A[i] from A[i-1] (41_seeding.md R100). -/
def genrandStep (prev : Word) (i : Nat) : Word := fInit * (prev ^^^ (prev >>> 30)) + BitVec.ofNat 32 i

/-- One step of INIT_LCG69069: A[i] from A[i-1] (41_seeding.md R101). -/
def lcgStep (prev : Word) (_i : Nat) : Word := lcgMul * prev

/-- `n` words of a recurrence, the first of them `x` at index `i`. -/
def unfoldFrom (f : Word → Nat → Word) (x : Word) (i : Nat) : Nat → List Word
  | 0 => []
  | n + 1 => x :: unfoldFrom f (f x (i + 1)) (i + 1) n

/-- INIT_GENRAND (41_seeding.md R100). -/
def initGenrand (s : Word) : List Word := unfoldFrom genrandStep s 0 624

/-- INIT_LCG69069 (41_seeding.md R101). -/
def initLcg69069 (s : Word) : List Word := unfoldFrom lcgStep s 0 624

/-- INIT_INT (41_seeding.md R102). -/
def initInt (alg : IntSeedAlg) (s : Word) : List Word :=
  match alg with
  | .genrand => initGenrand s
  | .lcg69069 => initLcg69069 s

/-- The variables of array seeding: the array and the two indices (41_seeding.md R106). -/
structure Mix where
  A : List Word
  i : Nat
  j : Nat
deriving DecidableEq, Repr

/-- The word that both passes mix: A[i] ^ ((A[i-1] ^ (A[i-1] >> 30)) * m) (41_seeding.md R106, R107). -/
def mixWord (A : List Word) (i : Nat) (m : Word) : Word :=
  word A i ^^^ ((word A (i - 1) ^^^ (word A (i - 1) >>> 30)) * m)

/-- The test after the increment of i: at 624, A[0] <- A[623] and i <- 1 (41_seeding.md R106, R107). -/
def wrapIndex (A : List Word) (i : Nat) : List Word × Nat :=
  if 624 ≤ i then (A.set 0 (word A 623), 1) else (A, i)

/-- One iteration of pass 1 with the key words `key` (41_seeding.md R106). -/
def pass1Step (key : List Word) (x : Mix) : Mix :=
  let A := x.A.set x.i (mixWord x.A x.i aMul1 + word key x.j + BitVec.ofNat 32 x.j)
  let w := wrapIndex A (x.i + 1)
  { A := w.1, i := w.2, j := if key.length ≤ x.j + 1 then 0 else x.j + 1 }

/-- One iteration of pass 2 (41_seeding.md R107). -/
def pass2Step (x : Mix) : Mix :=
  let A := x.A.set x.i (mixWord x.A x.i aMul2 - BitVec.ofNat 32 x.i)
  let w := wrapIndex A (x.i + 1)
  { x with A := w.1, i := w.2 }

/-- `n` iterations. -/
def repeatMix (f : Mix → Mix) : Nat → Mix → Mix
  | 0, x => x
  | n + 1, x => repeatMix f n (f x)

/-- Pass 1: max(624, L) iterations from i = 1, j = 0 (41_seeding.md R106, R109). -/
def pass1 (key : List Word) (A : List Word) : Mix :=
  repeatMix (pass1Step key) (max 624 key.length) { A := A, i := 1, j := 0 }

/-- Pass 2: 623 iterations, i going on from pass 1 (41_seeding.md R107, R109). -/
def pass2 (x : Mix) : Mix := repeatMix pass2Step 623 x

/-- INIT_ARRAY (41_seeding.md R105 to R108): bootstrap by INIT_GENRAND whatever INT_SEED_ALG says, the two passes,
then A[0] <- A_FORCE. -/
def initArray (key : List Word) : List Word :=
  (pass2 (pass1 key (initGenrand bootSeed))).A.set 0 aForce

/-- PerformSEED (41_seeding.md R103). -/
def performSeed (s : State) : State :=
  s.loadSeeded (initInt s.config.intSeedAlg (lowWord (seedOperand s))) (seedOperand s) false

/-- PerformSEEDA (41_seeding.md R110). -/
def performSeeda (s : State) : Result State :=
  if keyLenOk s.config s.keyLen then
    match keyOperand s with
    | .error j => .fault (.unwrittenKeyUse j)
    | .ok key => .next (s.loadSeeded (initArray key) 0 true)
  else .fault .keyLengthAtCompletion

/-- SEED (41_seeding.md R103). While BUSY = 0 the command is issued: it has no check beyond BUSY and legality, so it
is accepted (30_encoding.md R89). While BUSY = 1 it is the pending command and the Engine completes it (R90). -/
def execSeed (s : State) : Result State :=
  if s.busy then .next (performSeed s).complete else .next (s.accept .seed)

/-- SEEDA (41_seeding.md R110). Issued while BUSY = 0: refused with INVALID_SEED unless 1 <= KEYLEN <= KEY_MAX
(30_encoding.md R89). While BUSY = 1 the Engine completes it (R90). -/
def execSeeda (s : State) : Result State :=
  if s.busy then andThen (performSeeda s) fun t => .next t.complete
  else if keyLenOk s.config s.keyLen then .next (s.accept .seeda)
  else .next (s.seterr .invalidSeed)

end Sys2Proof.Machine
end

