-- ==== Sys2Proof/Machine/Dispatch.lean ====
section
/-!
DEFINITION. The meaning of every command. A command has two parts (30_encoding.md R89, R90), told apart by BUSY: while
BUSY = 0 exec issues it (its own checks, then acceptance or a command error), while BUSY = 1 exec completes it.
-/

namespace Sys2Proof.Machine

/-- One arm per command; the meaning of each stands in its family's file. DEDUCED, safe: log entry 1. -/
def exec (i : Instr) (s : State) : Host.Outcome State Fault Refusal :=
  match i with
  | .seed => Sys2Proof.Machine.execSeed s
  | .seeda => Sys2Proof.Machine.execSeeda s
  | .next => Sys2Proof.Machine.execNext s
  | .clrerr => Sys2Proof.Machine.execClrerr s

end Sys2Proof.Machine
end

