-- ==== Sys2Proof/Machine/Flags.lean ====
section
/-!
DEFINITION. The flags: the error codes as numbers (60_exceptions.md R201) and the STATUS word (10_state.md R39), exact
while BUSY = 0 and with draws in the open fields while BUSY = 1 (20_memory.md R54).
-/

namespace Sys2Proof.Machine

/-- The code held in STATUS.ERR (60_exceptions.md R201). -/
def ErrCode.code : ErrCode → BitVec 4
  | .noError => 0
  | .invalidSeed => 1
  | .notSeeded => 2
  | .illegalCmd => 3
  | .busyErr => 4

/-- A flag as a word, 1 for true. -/
def flagWord (b : Bool) : Word := if b then 1 else 0

/-- The STATUS word (10_state.md R39): CURSOR in 25:16, ERR in 7:4, SRC in 2, SEEDED in 1, BUSY in 0; the other bits
0. -/
def statusWord (cursor : BitVec 10) (err : ErrCode) (src seeded busy : Bool) : Word :=
  (cursor.setWidth 32 <<< 16) ||| (err.code.setWidth 32 <<< 4) ||| (flagWord src <<< 2) ||| (flagWord seeded <<< 1) |||
    flagWord busy

/-- A read of STATUS (20_memory.md R54). While BUSY = 1, CURSOR, SRC and SEEDED are draws; BUSY and ERR are exact. -/
def readStatus (s : State) : Word × State :=
  if s.busy then
    (statusWord (Config.drawCursor s.draws) s.err (Config.drawSrc s.draws) (Config.drawSeeded s.draws) true, s.tick)
  else (statusWord s.cursor s.err s.src s.seeded false, s)

/-- A read of a register that a command changes: a draw while BUSY = 1, its value otherwise (20_memory.md R54). -/
def readOpen (v : Word) (s : State) : Word × State :=
  if s.busy then (Config.drawWord s.draws, s.tick) else (v, s)

end Sys2Proof.Machine
end

