-- ==== Sys2Proof/Machine/Bus.lean ====
section
/-!
DEFINITION. The Host's accesses to the register window (20_memory.md): what an offset names (R51), HostRead (R54, R56,
R57), IssueCommand (30_encoding.md R89) and HostWrite (R55, R56).
-/

namespace Sys2Proof.Machine

/-- What stands at an offset of the window (20_memory.md R51). -/
inductive Target where
  /-- A register of 10_state.md R38. -/
  | reg (r : Reg)
  /-- KEY[i], i < KEY_MAX (20_memory.md R56). -/
  | key (i : Nat)
  /-- MT[i], i <= 623 (20_memory.md R57). -/
  | state (i : Nat)
  /-- A reserved offset (20_memory.md R58). -/
  | reserved
deriving DecidableEq, Repr

/-- The target of a 4-byte-aligned offset (20_memory.md R51, R58). -/
def target (c : Config) (off : Nat) : Target :=
  if off < 0x1000 then
    match regAt off with
    | some r => .reg r
    | none => .reserved
  else if off < 0x2000 then
    if (off - 0x1000) / 4 < c.keyMax then .key ((off - 0x1000) / 4) else .reserved
  else if off < 0x3000 then
    if (off - 0x2000) / 4 < 624 then .state ((off - 0x2000) / 4) else .reserved
  else .reserved

/-- A read of a register (20_memory.md R54). -/
def readReg (r : Reg) (s : State) : Word × State :=
  match r with
  | .cmd => (0, s)
  | .status => readStatus s
  | .seedLo => (s.seedLo, s)
  | .seedHi => (s.seedHi, s)
  | .keyLen => (s.keyLen, s)
  | .out => readOpen s.out s
  | .origSeedLo => readOpen (lowWord s.origSeed) s
  | .origSeedHi => readOpen (highWord s.origSeed) s
  | .twists => readOpen s.twists s
  | .id => (idValue, s)
  | .keyMax => (BitVec.ofNat 32 s.config.keyMax, s)

/-- A read of KEY[i]: exact while BUSY = 1 too (20_memory.md R56). -/
def readKey (i : Nat) (s : State) : Result (Word × State) :=
  match keyWord s i with
  | none => .fault (.unwrittenKeyRead i)
  | some v => .next (v, s)

/-- A read of MT[i] through the state window: the word as stored, before tempering (20_memory.md R57). -/
def readState (i : Nat) (s : State) : Result (Word × State) :=
  if s.busy then .next (Config.drawWord s.draws, s.tick)
  else
    match mtWord s i with
    | none => .fault (.unseededStateRead i)
    | some v => .next (v, s)

/-- The checks that come before anything else (20_memory.md R52, 60_exceptions.md R208): is the access one to the
window, 32 bits wide and aligned? -/
def checkAccess {α : Type} (w : Width) (off : Nat) (go : Result α) : Result α :=
  if off < 0x4000 then
    if w = .w32 ∧ off % 4 = 0 then go else .fault (.busError off)
  else .refused (.outsideWindow off)

/-- HostRead(off) (20_memory.md R54): the value and the state after, which differs only in the number of draws taken.
-/
def hostRead (w : Width) (off : Nat) (s : State) : Result (Word × State) :=
  checkAccess w off <|
    match target s.config off with
    | .reg r => .next (readReg r s)
    | .key i => readKey i s
    | .state i => readState i s
    | .reserved => .fault (.busError off)

/-- IssueCommand(CW) (30_encoding.md R89): BUSY, then legality, then the command's own checks, which its meaning
makes. -/
def issueCommand (cw : Word) (s : State) : Result State :=
  if s.busy then .next (s.seterr .busyErr)
  else
    match decodeWord cw with
    | .error _ => .next (s.seterr .illegalCmd)
    | .ok i => exec i s

/-- A write to an operand: discarded with BUSY_ERR while BUSY = 1 (20_memory.md R55, R56, 60_exceptions.md R205). -/
def writeOperand (f : State → State) (s : State) : Result State :=
  if s.busy then .next (s.seterr .busyErr) else .next (f s)

/-- A write to a register (20_memory.md R55); the read-only ones raise BusError whether or not BUSY = 1. -/
def writeReg (r : Reg) (off : Nat) (v : Word) (s : State) : Result State :=
  match r with
  | .cmd => issueCommand v s
  | .seedLo => writeOperand (State.setSeedLo v) s
  | .seedHi => writeOperand (State.setSeedHi v) s
  | .keyLen => writeOperand (State.setKeyLen v) s
  | .status => .fault (.busError off)
  | .out => .fault (.busError off)
  | .origSeedLo => .fault (.busError off)
  | .origSeedHi => .fault (.busError off)
  | .twists => .fault (.busError off)
  | .id => .fault (.busError off)
  | .keyMax => .fault (.busError off)

/-- HostWrite(off, v) (20_memory.md R55): the address checks come first (60_exceptions.md R208). -/
def hostWrite (w : Width) (off : Nat) (v : Word) (s : State) : Result State :=
  checkAccess w off <|
    match target s.config off with
    | .reg r => writeReg r off v s
    | .key i => writeOperand (State.setKey i v) s
    | .state _ => .fault (.busError off)
    | .reserved => .fault (.busError off)

/-- The offset in the window, placed at the page, of a byte address of the Host's bus (20_memory.md R50), if it lies
in the window. -/
def windowOffset (page a : Nat) : Option Nat :=
  if base page ≤ a ∧ a < base page + 0x4000 then some (a - base page) else none

/-- A read at a byte address of the Host's bus. -/
def busRead (page : Nat) (w : Width) (a : Nat) (s : State) : Result (Word × State) :=
  match windowOffset page a with
  | some off => hostRead w off s
  | none => .refused (.outsideWindow a)

/-- A write at a byte address of the Host's bus. -/
def busWrite (page : Nat) (w : Width) (a : Nat) (v : Word) (s : State) : Result State :=
  match windowOffset page a with
  | some off => hostWrite w off v s
  | none => .refused (.outsideWindow a)

end Sys2Proof.Machine
end

