-- ==== Sys2Proof/Machine/Agents.lean ====
section
/-!
DEFINITION. The moves of the two agents (00_scope.md R8) and of the reset input, and who moves next (60_exceptions.md
R209). DESIGN CHOICE, unsafe: log entry 2.
-/

namespace Sys2Proof.Machine

/-- One statement of the Host's program (30_encoding.md R87, R88). Where the program has ended the Host has no step
and nothing changes. -/
def hostMove (s : State) : Result State :=
  match s.prog[s.pos]? with
  | none => .next s
  | some (.wr w off v) => andThen (hostWrite w off v s) fun t => .next (t.wrote off v)
  | some (.rd w off) => andThen (hostRead w off s) fun p => .next (p.2.didRead off p.1)
  | some (.bbusy l) => .next (s.goTo (if s.r.getLsbD 0 then l else s.pos + 1))

/-- EngineStep (30_encoding.md R90): the pending command is completed atomically. While BUSY = 0 the Engine has no
step and nothing changes. -/
def engineMove (s : State) : Result State :=
  if s.busy then
    match s.pending with
    | some i => exec i s
    | none => .fault .noPending
  else .next s

/-- One move. -/
def runMove (m : Move) (s : State) : Result State :=
  match m with
  | .host => hostMove s
  | .engine => engineMove s
  | .reset => .next s.hardwareReset

/-- Who moves next: the first of the moves ordered from outside; where none is ordered, the Engine if it has a step
and the Host otherwise, which is the shortest run of 95_test_vectors.md section 3. -/
def nextMove (s : State) : Move :=
  match s.sched with
  | m :: _ => m
  | [] => if s.busy then .engine else .host

/-- The step of the whole system. -/
def systemStep (s : State) : Result State := runMove (nextMove s) (s.withSched s.sched.tail)

/-- Place the CMD write of a command word at the Host's position, and everything it takes for the very next move to
issue it: the Host moves next, and no command is pending. DESIGN CHOICE, unsafe: log entry 6. -/
def placeCommand (cw : Word) (s : State) : State :=
  { s with
    prog := s.prog.take s.pos ++ .wr .w32 0x000 cw :: s.prog.drop (s.pos + 1)
    pos := min s.pos s.prog.length
    busy := false
    pending := none
    sched := .host :: s.sched }

/-- A command given and completed with nothing in between: issue, then completion if it was accepted. -/
def runCommand (i : Instr) (s : State) : Result State :=
  andThen (exec i s) fun t => if t.busy then exec i t else .next t

end Sys2Proof.Machine
end

