-- ==== Sys2Proof/Machine/Step.lean ====
section
/-!
DEFINITION. The step of the machine, and where an instruction word is placed for it to be fetched.
-/

namespace Sys2Proof.Machine

/-- One step: one move of the Host, of the Engine or of the reset input. -/
def step (s : State) : Host.Outcome State Fault Refusal := systemStep s

/-- `s` with the command word of a row of spec/opcode_table.json placed where the next step reads it: as the CMD write
at the Host's position. -/
def State.withFetchWord (s : State) (nbits w : Nat) : State := placeCommand (tableWord nbits w) s

end Sys2Proof.Machine
end

