-- ==== Sys2Proof/Machine/Assembler.lean ====
section
/-!
DEFINITION. The Host's assembler (30_encoding.md R88): source statements, the expansion of the pseudo-instructions,
and what is refused at assembly. A program is given as data, not as text: the lines and names of R88 without its
punctuation, comments and spacing. DESIGN CHOICE, safe: log entry 11.
-/

namespace Sys2Proof.Machine

/-- `loc` of 30_encoding.md R88. -/
inductive Loc where
  /-- A register by its name. -/
  | name (n : String)
  /-- KEY(i). -/
  | key (i : Nat)
  /-- STATE(i). -/
  | state (i : Nat)
  /-- A byte offset. -/
  | number (off : Nat)
deriving DecidableEq, Repr

/-- `stmt` of 30_encoding.md R88, but for `repeat`, which holds a program of its own (see Source). -/
inductive SrcStmt where
  | wr (l : Loc) (v : Nat)
  | rd (l : Loc)
  | bbusy (label : String)
  | cmd (op : String)
  | wait
  | seed (S : Nat)
  | seeda (key : List Nat)
  | next
  | clrerr
  | chkerr
deriving DecidableEq, Repr

/-- `program` of 30_encoding.md R88. -/
inductive Source where
  /-- The end of the program or of a body. -/
  | done
  /-- A line, with its label if it has one. -/
  | line (label : Option String) (s : SrcStmt) (rest : Source)
  /-- `repeat n { body }`. -/
  | rep (label : Option String) (n : Nat) (body : Source) (rest : Source)
deriving DecidableEq, Repr

/-- What the assembler refuses (30_encoding.md R88). -/
inductive AsmError where
  /-- A value of 2^32 or more, or a seed of 2^64 or more. -/
  | valueTooLarge
  /-- An unknown name of a register or of a command. -/
  | unknownName
  /-- KEY(i) with i >= KEY_MAX. -/
  | keyIndex
  /-- STATE(i) with i > 623. -/
  | stateIndex
  /-- `seeda` with L = 0 or L > KEY_MAX. -/
  | keyLength
  /-- A `bbusy` whose label is on no statement of the program. -/
  | unknownLabel
  /-- A label that stands twice in the expanded program, so that its target is not one statement. DESIGN CHOICE, safe:
  log entry 11. -/
  | duplicateLabel
deriving DecidableEq, Repr

/-- The register a name stands for (10_state.md R38). -/
def regNamed (n : String) : Except AsmError Reg :=
  if n = "CMD" then .ok .cmd
  else if n = "STATUS" then .ok .status
  else if n = "SEED_LO" then .ok .seedLo
  else if n = "SEED_HI" then .ok .seedHi
  else if n = "KEYLEN" then .ok .keyLen
  else if n = "OUT" then .ok .out
  else if n = "ORIG_SEED_LO" then .ok .origSeedLo
  else if n = "ORIG_SEED_HI" then .ok .origSeedHi
  else if n = "TWISTS" then .ok .twists
  else if n = "ID" then .ok .id
  else if n = "KEYMAX" then .ok .keyMax
  else .error .unknownName

/-- The command a name stands for (30_encoding.md R82, R88). -/
def commandNamed (n : String) : Except AsmError Instr :=
  if n = "SEED" then .ok .seed
  else if n = "SEEDA" then .ok .seeda
  else if n = "NEXT" then .ok .next
  else if n = "CLRERR" then .ok .clrerr
  else .error .unknownName

/-- The offset of a location (30_encoding.md R88). -/
def locOffset (c : Config) : Loc → Except AsmError Nat
  | .name n => (regNamed n).map Reg.offset
  | .key i => if i < c.keyMax then .ok (0x1000 + 4 * i) else .error .keyIndex
  | .state i => if i < 624 then .ok (0x2000 + 4 * i) else .error .stateIndex
  | .number off => .ok off

/-- `value` of 30_encoding.md R88, below 2^32. -/
def asmValue (v : Nat) : Except AsmError Word :=
  if v < 2 ^ 32 then .ok (BitVec.ofNat 32 v) else .error .valueTooLarge

/-- A program between expansion and the resolution of labels. -/
inductive Item where
  /-- A label, standing before the next statement. -/
  | label (l : String)
  /-- A write. -/
  | wr (off : Nat) (v : Word)
  /-- A read. -/
  | rd (off : Nat)
  /-- `bbusy` to a label of the program. -/
  | bbusy (l : String)
  /-- The `bbusy` of a `wait`, whose fresh label is on the statement before it. -/
  | bbusyBack
deriving DecidableEq, Repr

/-- `cmd` (30_encoding.md R88): a write of the command word to CMD. -/
def cmdItem (i : Instr) : Item := .wr (Reg.offset .cmd) (encode i)

/-- `wait`: `L: rd STATUS` then `bbusy L` (30_encoding.md R88). -/
def waitItems : List Item := [.rd (Reg.offset .status), .bbusyBack]

/-- The key writes of `seeda`: KEY(i), KEY(i+1), ... -/
def keyItems : Nat → List Nat → Except AsmError (List Item)
  | _, [] => .ok []
  | i, k :: ks => do
    let v ← asmValue k
    let rest ← keyItems (i + 1) ks
    .ok (.wr (0x1000 + 4 * i) v :: rest)

/-- The expansion of one statement (30_encoding.md R88). -/
def expandStmt (c : Config) : SrcStmt → Except AsmError (List Item)
  | .wr l v => do
    let off ← locOffset c l
    let w ← asmValue v
    .ok [.wr off w]
  | .rd l => do
    let off ← locOffset c l
    .ok [.rd off]
  | .bbusy l => .ok [.bbusy l]
  | .cmd op => do
    let i ← commandNamed op
    .ok [cmdItem i]
  | .wait => .ok waitItems
  | .seed S =>
    if S < 2 ^ 64 then
      .ok ([.wr (Reg.offset .seedLo) (BitVec.ofNat 32 S), .wr (Reg.offset .seedHi) (BitVec.ofNat 32 (S / 2 ^ 32)),
        cmdItem .seed] ++ waitItems)
    else .error .valueTooLarge
  | .seeda ks =>
    if 1 ≤ ks.length ∧ ks.length ≤ c.keyMax then do
      let writes ← keyItems 0 ks
      .ok (writes ++ [.wr (Reg.offset .keyLen) (BitVec.ofNat 32 ks.length), cmdItem .seeda] ++ waitItems)
    else .error .keyLength
  | .next => .ok (cmdItem .next :: waitItems ++ [.rd (Reg.offset .out)])
  | .clrerr => .ok (cmdItem .clrerr :: waitItems)
  | .chkerr => .ok [.rd (Reg.offset .status)]

/-- The items of an optional label. -/
def labelItems : Option String → List Item
  | none => []
  | some l => [.label l]

/-- The body of a `repeat`, written out n times in order (30_encoding.md R88). -/
def copies (n : Nat) (l : List Item) : List Item :=
  match n with
  | 0 => []
  | n + 1 => l ++ copies n l

/-- The expansion of a program (30_encoding.md R88). A label stands before the first statement of its line's
expansion. Where a line expands to no statement (`repeat 0`, or a `repeat` with an empty body) R88 does not say which
statement carries its label: here it is the next statement of the program. DESIGN CHOICE, unsafe: log entry 11. -/
def expand (c : Config) : Source → Except AsmError (List Item)
  | .done => .ok []
  | .line l s rest => do
    let a ← expandStmt c s
    let b ← expand c rest
    .ok (labelItems l ++ a ++ b)
  | .rep l n body rest => do
    let a ← expand c body
    let b ← expand c rest
    .ok (labelItems l ++ copies n a ++ b)

/-- The labels of a program in order, each with the position of the statement it stands before; `p` is the position of
the first statement. -/
def labelsFrom : Nat → List Item → List (String × Nat)
  | _, [] => []
  | p, .label l :: rest => (l, p) :: labelsFrom p rest
  | p, _ :: rest => labelsFrom (p + 1) rest

/-- The positions a label stands at. -/
def positionsOf (table : List (String × Nat)) (l : String) : List Nat :=
  (table.filter fun e => e.1 = l).map Prod.snd

/-- Resolve the statements from position `p` on, in a program of `len` statements. -/
def resolveFrom (table : List (String × Nat)) (len : Nat) : Nat → List Item → Except AsmError (List Stmt)
  | _, [] => .ok []
  | p, .label _ :: rest => resolveFrom table len p rest
  | p, .wr off v :: rest => do
    let l ← resolveFrom table len (p + 1) rest
    .ok (.wr .w32 off v :: l)
  | p, .rd off :: rest => do
    let l ← resolveFrom table len (p + 1) rest
    .ok (.rd .w32 off :: l)
  | p, .bbusyBack :: rest => do
    let l ← resolveFrom table len (p + 1) rest
    .ok (.bbusy (p - 1) :: l)
  | p, .bbusy s :: rest => do
    let l ← resolveFrom table len (p + 1) rest
    match positionsOf table s with
    | [t] => if t < len then .ok (.bbusy t :: l) else .error .unknownLabel
    | [] => .error .unknownLabel
    | _ => .error .duplicateLabel

/-- How many statements a list of items makes. -/
def statementCount : List Item → Nat
  | [] => 0
  | .label _ :: rest => statementCount rest
  | _ :: rest => statementCount rest + 1

/-- The assembler (30_encoding.md R88): a source program to the statements the Host executes, or what is refused. -/
def assemble (c : Config) (p : Source) : Except AsmError (List Stmt) := do
  let items ← expand c p
  resolveFrom (labelsFrom 0 items) (statementCount items) 0 items

end Sys2Proof.Machine
end

