-- ==== Sys2Proof/Machine/Runs.lean ====
section
/-!
DEFINITION. A Host program run to its end (30_encoding.md R87, 00_scope.md R8), and the host program `next` (R88).
-/

namespace Sys2Proof.Machine

/-- The run of the Host's program has ended (30_encoding.md R87), and no command is pending (00_scope.md R8: a run in
which BUSY = 1 is not finished). -/
def runFinished (s : State) : Bool := decide (s.prog.length ≤ s.pos) && !s.busy

/-- Steps until the run is finished, at most `fuel` of them: the finished state, nothing if the fuel does not suffice,
and a stop where a step stops. -/
def runProgram : Nat → State → Result (Option State)
  | 0, s => .next (if runFinished s then some s else none)
  | n + 1, s => if runFinished s then .next (some s) else andThen (step s) (runProgram n)

/-- The host program `next` (30_encoding.md R88): `cmd NEXT`, `wait`, `rd OUT`. -/
def nextProgram : List Stmt :=
  [.wr .w32 (Reg.offset .cmd) (encode .next), .rd .w32 (Reg.offset .status), .bbusy 1, .rd .w32 (Reg.offset .out)]

end Sys2Proof.Machine
end

