-- ==== Sys2Proof/Machine/HostFloat.lean ====
section
/-!
DEFINITION. The Host's uniform mapping (45_host_float.md), outside the block: from a word read from OUT to the bit
pattern of an IEEE 754 binary64 value.
-/

namespace Sys2Proof.Machine

/-- num / den rounded to the nearest natural number, ties to even (45_host_float.md R183). -/
def roundHalfEven (num den : Nat) : Nat :=
  let q := num / den
  let rem := num % den
  if den < 2 * rem ∨ (2 * rem = den ∧ q % 2 = 1) then q + 1 else q

/-- The least e, at most `fuel`, with den <= num * 2^e: the binary64 exponent of num / den is then -e, for 0 < num <=
den. -/
def leadingExponent (num den : Nat) : Nat → Nat
  | 0 => 0
  | fuel + 1 => if den ≤ num then 0 else leadingExponent (2 * num) den fuel + 1

/-- The bit pattern of num / den, for 0 <= num <= den < 2^64 and num / den not below 2^-63, rounded to nearest, ties
to even: sign 0, biased exponent 1023 - e in bits 62:52, fraction in 51:0. The significand is rounded to 53 bits and
its leading bit carries into the exponent. -/
def binary64 (num den : Nat) : BitVec 64 :=
  if num = 0 then 0
  else
    let e := leadingExponent num den 63
    BitVec.ofNat 64 ((1022 - e) * 2 ^ 52 + roundHalfEven (num * 2 ^ (52 + e)) den)

/-- OPEN01: (w + 0.5) / 2^32, which is (2w + 1) / 2^33 (45_host_float.md R181). -/
def open01 (w : Word) : BitVec 64 := binary64 (2 * w.toNat + 1) (2 ^ 33)

/-- HALFOPEN01: w / 2^32 (45_host_float.md R182). -/
def halfOpen01 (w : Word) : BitVec 64 := binary64 w.toNat (2 ^ 32)

/-- CLOSED01: w / (2^32 - 1), rounded to nearest, ties to even (45_host_float.md R183). -/
def closed01 (w : Word) : BitVec 64 := binary64 w.toNat (2 ^ 32 - 1)

/-- The mapping of a policy (45_host_float.md R180). -/
def uniform (p : FloatPolicy) (w : Word) : BitVec 64 :=
  match p with
  | .open01 => open01 w
  | .halfOpen01 => halfOpen01 w
  | .closed01 => closed01 w

/-- next_f64 (45_host_float.md R184): the host program `next` is run to its end, and the mapping of the Host's policy
(R180) is applied to r. It answers the mapped value and the state after; nothing if `fuel` steps do not end the run.
Whatever NEXT does it does here: a refusal leaves its error in ERR and the word of OUT unchanged, a fault stops the
run. -/
def nextF64 (fuel : Nat) (s : State) : Result (Option (BitVec 64 × State)) :=
  andThen (runProgram fuel (s.withProgram nextProgram)) fun o =>
    .next (o.map fun t => (uniform t.config.floatPolicy t.r, t))

/-- The numerator of a binary64 pattern with sign 0, over 2^1075: 2^(exponent) * significand for a normal value. -/
def scaledValue (b : BitVec 64) : Nat :=
  let e := (b.extractLsb' 52 11).toNat
  let f := (b.extractLsb' 0 52).toNat
  if e = 0 then 2 * f else 2 ^ e * (2 ^ 52 + f)

end Sys2Proof.Machine
end

