-- ==== Sys2Proof/Safety.lean ====
section
/-!
DEFINITION. What counts as a sound state and a sound run of the whole system, in the terms the statements use.
-/

namespace Sys2Proof.Machine

/-- The invariant of the system: it holds at reset with any Host program and any order of moves, and every step keeps
it. -/
structure Inv (s : State) : Prop where
  /-- The state array has 624 words and is never resized (10_state.md R21, R22). -/
  mtLength : s.mt.length = 624
  /-- CURSOR is 0 to 624; 625 to 1023 are never reached (10_state.md R23). -/
  cursorRange : s.cursor.toNat ≤ 624
  /-- PENDING is NONE exactly when BUSY = 0 (10_state.md R28). -/
  busyPending : s.busy = s.pending.isSome
  /-- After the first successful seeding every word of MT is written (10_state.md R21). -/
  seededWritten : s.seeded = true → ∀ w ∈ s.mt, w.isSome = true
  /-- Until then every word of MT is UNWRITTEN (10_state.md R21, R25). -/
  unseededBlank : s.seeded = false → ∀ w ∈ s.mt, w = none
  /-- NEXT is pending only on a seeded block (60_exceptions.md R203). -/
  nextSeeded : s.pending = some .next → s.seeded = true
  /-- SEEDA is pending only with 1 <= KEYLEN <= KEY_MAX (60_exceptions.md R202). -/
  seedaLength : s.pending = some .seeda → 1 ≤ s.keyLen.toNat ∧ s.keyLen.toNat ≤ s.config.keyMax
  /-- The key RAM keeps its canonical form (log entry 4). -/
  keyCanonical : s.key.wf = true
  /-- Every byte of the key RAM stands behind the key window (20_memory.md R56). -/
  keyInWindow : ∀ c ∈ s.key, 0x1000 ≤ c.1 ∧ c.1 < 0x1000 + 4 * s.config.keyMax
  /-- The configuration is one of 00_scope.md R7. -/
  configWf : s.config.wf = true

/-- A state that some Host program reaches from reset, in some configuration and under some order of moves
(00_scope.md R7, R8). -/
inductive Reachable : State → Prop where
  /-- Right after reset, with a configuration, a Host program placed and an order of moves given. -/
  | start (c : Config) (p : List Stmt) (l : List Move) (h : c.wf = true) :
      Reachable { State.reset with config := c, prog := p, sched := l }
  /-- One more step. -/
  | step {s t : State} (h : Reachable s) (e : Machine.step s = .next t) : Reachable t

/-- The generator of t is that of s: what SEED, SEEDA and NEXT write (10_state.md R41), and ERR. -/
structure SameGenerator (s t : State) : Prop where
  mt : t.mt = s.mt
  cursor : t.cursor = s.cursor
  origSeed : t.origSeed = s.origSeed
  seeded : t.seeded = s.seeded
  src : t.src = s.src
  out : t.out = s.out
  twists : t.twists = s.twists
  err : t.err = s.err

/-- `c` NEXT commands, each issued and completed before the following one. -/
def nextTimes : Nat → State → Result State
  | 0, s => .next s
  | c + 1, s => andThen (nextTimes c s) (runCommand .next)

/-- A sequence of words obeys the recurrence of 42_twist.md R135. -/
def IsTwistSequence (x : Nat → Word) : Prop :=
  ∀ n, x (n + 624) = x (n + 397) ^^^
    ((((x n &&& 0x80000000) ||| (x (n + 1) &&& 0x7FFFFFFF)) >>> 1) ^^^
      (if ((x n &&& 0x80000000) ||| (x (n + 1) &&& 0x7FFFFFFF)).getLsbD 0 then 0x9908B0DF else 0))

/-- Just seeded with the 624 words of A: what a successful seeding leaves (41_seeding.md R103, R110), with no command
pending. -/
structure JustSeeded (A : List Word) (s : State) : Prop where
  idle : s.busy = false
  seeded : s.seeded = true
  exhausted : s.cursor = 624
  counter : s.twists = 0
  words : s.mt = A.map some
  length : A.length = 624

/-- The reserved offsets of the window (20_memory.md R58). -/
abbrev reservedOffset (c : Config) (off : Nat) : Prop :=
  (0x2C ≤ off ∧ off < 0x1000) ∨ (0x1000 + 4 * c.keyMax ≤ off ∧ off < 0x2000) ∨ 0x29C0 ≤ off

/-- The read-only offsets of the window (60_exceptions.md R207): STATUS, OUT, ORIG_SEED_LO, ORIG_SEED_HI, TWISTS, ID,
KEYMAX and the state window. -/
abbrev readOnlyOffset (off : Nat) : Prop :=
  off ∈ [0x004, 0x014, 0x018, 0x01C, 0x020, 0x024, 0x028] ∨ (0x2000 ≤ off ∧ off < 0x29C0)

/-- The offsets whose write is discarded while BUSY = 1 (60_exceptions.md R205): CMD, SEED_LO, SEED_HI, KEYLEN and the
key words. -/
abbrev commandOrOperandOffset (c : Config) (off : Nat) : Prop :=
  off ∈ [0x000, 0x008, 0x00C, 0x010] ∨ (0x1000 ≤ off ∧ off < 0x1000 + 4 * c.keyMax ∧ off < 0x2000 ∧ off % 4 = 0)

/-- N is related to O as the three segments of 42_twist.md R131 relate the array after a twist to the array before it.
-/
def ThreeSegments (O N : List Word) : Prop :=
  N.length = 624 ∧
  (∀ k, k ≤ 226 → N.getD k 0 = twistWord (O.getD k 0) (O.getD (k + 1) 0) (O.getD (k + 397) 0)) ∧
  (∀ k, 227 ≤ k → k ≤ 622 → N.getD k 0 = twistWord (O.getD k 0) (O.getD (k + 1) 0) (N.getD (k - 227) 0)) ∧
  N.getD 623 0 = twistWord (O.getD 623 0) (N.getD 0 0) (N.getD 396 0)

end Sys2Proof.Machine
end

