-- ==== Sys2Proof/Certificates/Slice0/Obligations.lean ====
section
/-!
DEFINITION. The statements for the provers, from the numbered rules of spec/.
-/

open Sys2Proof Sys2Proof.Machine

/-! ## The command word -/

/-- The decoder accepts a byte sequence as the command i exactly when it begins with the four bytes of i's encoding
(30_encoding.md R80, R82, R84). -/
def Obligations.DecodeEncodeAgree : Prop :=
  ∀ (i : Instr) (bs rest : List Byte), decode bs = .ok (i, rest) ↔ bs = encodeBytes i ++ rest

/-- Words written out from 30_encoding.md R80 and R82, and from 95_test_vectors.md V40. -/
def Obligations.SpecWordsDecode : Prop :=
  decodeWord 0x00000001 = .ok .seed ∧ decodeWord 0x00000002 = .ok .seeda ∧ decodeWord 0x00000003 = .ok .next ∧
  decodeWord 0x00000004 = .ok .clrerr ∧ decodeWord 0x00000000 = .error .reservedOpcode ∧
  decodeWord 0x000000FF = .error .reservedOpcode ∧ decodeWord 0x00000103 = .error .reservedBits ∧
  decode [0x03, 0x00, 0x00, 0x00] = .ok (.next, []) ∧ decode [0x00, 0x00, 0x00, 0x03] = .error .reservedBits

/-- A command word is illegal when OP is 0x00 or lies in 0x05 to 0xFF, or RSV is not 0; the legal words are exactly 1
to 4; an illegal command records ILLEGAL_CMD and changes nothing else (30_encoding.md R83, 60_exceptions.md R204). -/
def Obligations.IllegalWordsRefused : Prop :=
  ∀ cw : Word,
    ((∃ e, decodeWord cw = .error e) ↔
      cw.extractLsb' 8 24 ≠ 0 ∨ cw.extractLsb' 0 8 = 0 ∨ 5 ≤ (cw.extractLsb' 0 8).toNat) ∧
    ((∃ i, decodeWord cw = .ok i) ↔ cw = 1 ∨ cw = 2 ∨ cw = 3 ∨ cw = 4) ∧
    ∀ s : State, s.busy = false → (∃ e, decodeWord cw = .error e) →
      hostWrite .w32 0x000 cw s = .next { s with err := if s.err = .noError then .illegalCmd else s.err }

/-! ## Steps -/

/-- A step at which the Host writes a command word to CMD while BUSY = 0 runs the decoded command's exec, and the Host
goes on to its next statement (30_encoding.md R84, R87, R89). -/
def Obligations.StepIssuesDecodedCommand : Prop :=
  ∀ (s : State) (cw : Word) (i : Instr), nextMove s = .host → s.prog[s.pos]? = some (.wr .w32 0x000 cw) →
    s.busy = false → decodeWord cw = .ok i →
    step s = andThen (exec i { s with sched := s.sched.tail }) fun t =>
      .next { t with trace := t.trace ++ [.write 0x000 cw], pos := t.pos + 1 }

/-- A step of the Engine runs the pending command's exec; the step is enabled exactly when BUSY = 1 (30_encoding.md
R90), so that a move of the Engine with BUSY = 0 changes nothing but the list of moves (that such a move can be
ordered at all is the model's choice, log entry 2). -/
def Obligations.StepCompletesPendingCommand : Prop :=
  ∀ s : State, nextMove s = .engine →
    (∀ i, s.busy = true → s.pending = some i → step s = exec i { s with sched := s.sched.tail }) ∧
    (s.busy = false → step s = .next { s with sched := s.sched.tail })

/-- A row's word placed by withFetchWord is issued by the very next step (the model's own placement, log entry 6). -/
def Obligations.PlacedWordIsIssuedNext : Prop :=
  ∀ (s : State) (w : Nat) (i : Instr), decodeTableWord 32 w = some i →
    step (s.withFetchWord 32 w) = andThen (exec i { s.withFetchWord 32 w with sched := s.sched }) fun t =>
      .next { t with trace := t.trace ++ [.write 0x000 (BitVec.ofNat 32 w)], pos := t.pos + 1 }

/-- The Host's statements (30_encoding.md R87, R88): a write, a read whose data go to r, a branch that makes no bus
transaction, and the end of the program, after which the Host has no step. The observation is the sequence of values
read (R87). -/
def Obligations.HostStatementsRun : Prop :=
  (∀ (l : List Txn) (off : Nat) (v : Word), observation (l ++ [.read off v]) = observation l ++ [v] ∧
    observation (l ++ [.write off v]) = observation l) ∧
  ∀ s : State, nextMove s = .host →
    (∀ w off v, s.prog[s.pos]? = some (.wr w off v) →
      step s = andThen (hostWrite w off v { s with sched := s.sched.tail }) fun t =>
        .next { t with trace := t.trace ++ [.write off v], pos := t.pos + 1 }) ∧
    (∀ w off, s.prog[s.pos]? = some (.rd w off) →
      step s = andThen (hostRead w off { s with sched := s.sched.tail }) fun p =>
        .next { p.2 with trace := p.2.trace ++ [.read off p.1], r := p.1, pos := p.2.pos + 1 }) ∧
    (∀ l, s.prog[s.pos]? = some (.bbusy l) →
      step s = .next { s with sched := s.sched.tail, pos := if s.r.getLsbD 0 then l else s.pos + 1 }) ∧
    (s.prog.length ≤ s.pos → step s = .next { s with sched := s.sched.tail })

/-! ## Issue -/

/-- The checks of a CMD write, in the order of 30_encoding.md R89; a refusal changes nothing except ERR, and ERR does
not block acceptance. -/
def Obligations.IssueChecksInOrder : Prop :=
  ∀ (s : State) (cw : Word),
    let refused := fun c => Host.Outcome.next (φ := Fault) (ρ := Refusal)
      { s with err := if s.err = .noError then c else s.err }
    (s.busy = true → hostWrite .w32 0x000 cw s = refused .busyErr) ∧
    (s.busy = false →
      ((∃ e, decodeWord cw = .error e) → hostWrite .w32 0x000 cw s = refused .illegalCmd) ∧
      (decodeWord cw = .ok .next → s.seeded = false → hostWrite .w32 0x000 cw s = refused .notSeeded) ∧
      (decodeWord cw = .ok .seeda → (s.keyLen = 0 ∨ s.config.keyMax < s.keyLen.toNat) →
        hostWrite .w32 0x000 cw s = refused .invalidSeed) ∧
      (∀ i, decodeWord cw = .ok i → (i = .next → s.seeded = true) →
        (i = .seeda → s.keyLen ≠ 0 ∧ s.keyLen.toNat ≤ s.config.keyMax) →
        hostWrite .w32 0x000 cw s = .next { s with busy := true, pending := some i }))

/-- INVALID_SEED: SEEDA issued with KEYLEN = 0 or KEYLEN > KEY_MAX is refused, the old generator and KEYLEN stay, and
a seeded block goes on extracting from it (60_exceptions.md R202). -/
def Obligations.InvalidSeedKeepsGenerator : Prop :=
  ∀ s : State, s.busy = false → (s.keyLen = 0 ∨ s.config.keyMax < s.keyLen.toNat) →
    ∃ t, hostWrite .w32 0x000 2 s = .next t ∧ t.err = (if s.err = .noError then .invalidSeed else s.err) ∧
      t.mt = s.mt ∧ t.cursor = s.cursor ∧ t.seeded = s.seeded ∧ t.src = s.src ∧ t.origSeed = s.origSeed ∧
      t.out = s.out ∧ t.twists = s.twists ∧ t.keyLen = s.keyLen ∧ t.busy = false ∧
      (s.seeded = true → exec .next t = .next { t with busy := true, pending := some .next })

/-- NOT_SEEDED: NEXT written while SEEDED = 0 is refused and changes nothing but ERR, so OUT, CURSOR and TWISTS keep
their values and no default seed is applied; it happens only between reset and the first successful seeding, since
SEEDED stays 1 until reset and NEXT is then accepted (60_exceptions.md R203). -/
def Obligations.NextBeforeSeedingRefused : Prop :=
  (∀ s : State, s.busy = false → s.seeded = false →
    hostWrite .w32 0x000 3 s = .next { s with err := if s.err = .noError then .notSeeded else s.err }) ∧
  (∀ s : State, s.busy = false → s.seeded = true →
    hostWrite .w32 0x000 3 s = .next { s with busy := true, pending := some .next }) ∧
  (∀ s t : State, step s = .next t → s.seeded = true → nextMove s ≠ .reset → t.seeded = true)

/-- BUSY_ERR: while BUSY = 1 a write of CMD, SEED_LO, SEED_HI, KEYLEN or a key word is discarded and the pending
command goes on with its operands unchanged; a read never raises it (60_exceptions.md R205). -/
def Obligations.BusyWritesDiscarded : Prop :=
  ∀ (s : State) (off : Nat) (v : Word), s.busy = true →
    (commandOrOperandOffset s.config off →
      hostWrite .w32 off v s = .next { s with err := if s.err = .noError then .busyErr else s.err }) ∧
    (∀ w u t, hostRead w off s = .next (u, t) → t.err = s.err)

/-- seterr keeps the first error; only CLRERR and reset clear ERR; with ERR = 0 before a command, ERR is still 0 after
it exactly when it was accepted; and a refused write changes nothing but ERR, and nothing at all while ERR is not 0
(60_exceptions.md R206). -/
def Obligations.FirstErrorIsKept : Prop :=
  (∀ s t : State, step s = .next t → s.err ≠ .noError → t.err ≠ s.err →
    t.err = .noError ∧
      (nextMove s = .reset ∨ (nextMove s = .engine ∧ s.busy = true ∧ s.pending = some .clrerr))) ∧
  (∀ (s t : State) (cw : Word), s.busy = false → s.err = .noError → hostWrite .w32 0x000 cw s = .next t →
    (t.err = .noError ↔ t.busy = true) ∧
    (∀ i u, t.busy = true → t.pending = some i → exec i t = .next u → u.err = .noError)) ∧
  (∀ (s t : State) (w : Width) (off : Nat) (v : Word), hostWrite w off v s = .next t →
    (s.busy = true ∨ (off = 0x000 ∧ t.busy = false)) → t = { s with err := t.err } ∧ (s.err ≠ .noError → t = s))

/-! ## Completion -/

/-- SEED completes: MT from SEED_LO by the configured recurrence (INIT_GENRAND on this hardware), CURSOR 624,
ORIG_SEED = SEED_HI:SEED_LO, SEEDED 1, SRC 0, OUT 0, TWISTS 0; nothing else but BUSY and PENDING changes
(41_seeding.md R103, 30_encoding.md R90). -/
def Obligations.SeedCompletes : Prop :=
  ∀ s : State, s.busy = true →
    exec .seed s = .next { s with
      mt := (initInt s.config.intSeedAlg s.seedLo).map some
      cursor := 624
      origSeed := s.seedHi ++ s.seedLo
      seeded := true
      src := false
      out := 0
      twists := 0
      busy := false
      pending := none }

/-- SEEDA completes on a key of 1 to KEY_MAX written words: MT by INIT_ARRAY, CURSOR 624, ORIG_SEED 0, SEEDED 1, SRC
1, OUT 0, TWISTS 0; nothing else but BUSY and PENDING changes, and key words at KEYLEN or above are not looked at
(41_seeding.md R110). -/
def Obligations.SeedaCompletes : Prop :=
  ∀ (s : State) (key : List Word), s.busy = true → key.length = s.keyLen.toNat → 1 ≤ key.length →
    key.length ≤ s.config.keyMax →
    (∀ j (h : j < key.length), keyWord s j = some key[j]) →
    exec .seeda s = .next { s with
      mt := (initArray key).map some
      cursor := 624
      origSeed := 0
      seeded := true
      src := true
      out := 0
      twists := 0
      busy := false
      pending := none }

/-- SEEDA faults the model when a key word below KEYLEN is UNWRITTEN (41_seeding.md R110, 60_exceptions.md R218). R110
and R218 do not say which of several such words the fault names: that it names the first is the model's choice (log
entry 9). -/
def Obligations.SeedaFaultsOnUnwrittenKey : Prop :=
  ∀ (s : State) (j : Nat), s.busy = true → s.keyLen.toNat ≤ s.config.keyMax → j < s.keyLen.toNat →
    keyWord s j = none → (∀ k, k < j → keyWord s k ≠ none) → exec .seeda s = .fault (.unwrittenKeyUse j)

/-- NEXT completes on a written state array: below 624 it reads MT[CURSOR]; at 624 or above it twists first and reads
the new MT[0]. OUT is the tempered word; nothing else but BUSY and PENDING changes (43_extract.md R151, 42_twist.md
R132). -/
def Obligations.NextCompletes : Prop :=
  ∀ (s : State) (A : List Word), s.busy = true → s.mt = A.map some → A.length = 624 →
    exec .next s =
      if s.cursor.toNat < 624 then
        .next { s with
          cursor := s.cursor + 1
          out := temper (A.getD s.cursor.toNat 0)
          busy := false
          pending := none }
      else
        .next { s with
          mt := (twist A).map some
          cursor := 1
          twists := s.twists + 1
          out := temper ((twist A).getD 0 0)
          busy := false
          pending := none }

/-- CLRERR: its word, its issue, its completion whatever ERR holds, a CLRERR refused by BUSY_ERR, and the STATUS words
of its example (44_control.md R170). -/
def Obligations.ClrerrClearsError : Prop :=
  decodeWord 0x00000004 = .ok .clrerr ∧
  statusWord 624 .notSeeded false false false = 0x02700020 ∧ statusWord 624 .noError false false false = 0x02700000 ∧
  ∀ s : State,
    (s.busy = true → exec .clrerr s = .next { s with err := .noError, busy := false, pending := none }) ∧
    (s.busy = false → exec .clrerr s = .next { s with busy := true, pending := some .clrerr }) ∧
    (s.busy = true →
      hostWrite .w32 0x000 4 s = .next { s with err := if s.err = .noError then .busyErr else s.err }) ∧
    (s.busy = false → runCommand .clrerr s = .next { s with err := .noError, pending := none })

/-! ## Frames -/

/-- No command changes an operand register, a byte of the key RAM, or anything of the Host's, of the order of moves or
of the draws (10_state.md R32, R33, R36, R37). -/
def Obligations.CommandsLeaveOperands : Prop :=
  ∀ (i : Instr) (s t : State), exec i s = .next t →
    t.seedLo = s.seedLo ∧ t.seedHi = s.seedHi ∧ t.keyLen = s.keyLen ∧ t.key = s.key ∧
    (∀ a, t.key.readByte a = s.key.readByte a) ∧
    t.prog = s.prog ∧ t.pos = s.pos ∧ t.r = s.r ∧ t.trace = s.trace ∧ t.sched = s.sched ∧ t.draws = s.draws ∧
    t.config = s.config

/-- What the events of 10_state.md R41 leave of the generator and of the flags: a command that is issued (BUSY = 0)
leaves the whole generator; at completion SEED and SEEDA leave ERR, NEXT leaves ORIG_SEED, SEEDED, SRC and ERR, and MT
and TWISTS too when it does not twist, and CLRERR leaves everything but ERR. -/
def Obligations.CommandsLeaveGenerator : Prop :=
  ∀ (i : Instr) (s t : State), exec i s = .next t →
    (s.busy = false ∨ i = .clrerr →
      t.mt = s.mt ∧ t.cursor = s.cursor ∧ t.origSeed = s.origSeed ∧ t.seeded = s.seeded ∧ t.src = s.src ∧
      t.out = s.out ∧ t.twists = s.twists) ∧
    (s.busy = true → i = .seed ∨ i = .seeda → t.err = s.err) ∧
    (s.busy = true → i = .next →
      t.origSeed = s.origSeed ∧ t.seeded = s.seeded ∧ t.src = s.src ∧ t.err = s.err ∧
      (s.cursor.toNat < 624 → t.mt = s.mt ∧ t.twists = s.twists)) ∧
    (s.busy = true → t.busy = false ∧ t.pending = none)

/-- A move of the Host changes nothing of the generator and never clears BUSY; while a command is pending it changes
neither PENDING nor an operand (10_state.md R22, R28; 20_memory.md R55). -/
def Obligations.HostMovesLeaveGenerator : Prop :=
  ∀ s t : State, nextMove s = .host → step s = .next t →
    t.mt = s.mt ∧ t.cursor = s.cursor ∧ t.origSeed = s.origSeed ∧ t.seeded = s.seeded ∧ t.src = s.src ∧
    t.out = s.out ∧ t.twists = s.twists ∧
    (s.busy = true → t.busy = true ∧ t.pending = s.pending ∧ t.seedLo = s.seedLo ∧ t.seedHi = s.seedHi ∧
      t.keyLen = s.keyLen ∧ t.key = s.key)

/-- The writers of the state array: the seeding commands and a NEXT that twists, at completion, and reset. It is never
resized (10_state.md R21, R22). -/
def Obligations.StateArrayWriters : Prop :=
  ∀ s t : State, step s = .next t →
    (t.mt ≠ s.mt → nextMove s = .reset ∨ (nextMove s = .engine ∧ s.busy = true ∧
      (s.pending = some .seed ∨ s.pending = some .seeda ∨ (s.pending = some .next ∧ 624 ≤ s.cursor.toNat)))) ∧
    (s.mt.length = 624 → t.mt.length = 624)

/-- SEEDED is set only by a seeding command that completes, and cleared only by reset (10_state.md R25). -/
def Obligations.SeededSetAndCleared : Prop :=
  ∀ s t : State, step s = .next t →
    (s.seeded = true → t.seeded = false → nextMove s = .reset) ∧
    (s.seeded = false → t.seeded = true → nextMove s = .engine ∧ s.busy = true ∧
      (s.pending = some .seed ∨ s.pending = some .seeda))

/-! ## Seeding -/

/-- INIT_GENRAND (41_seeding.md R100), INIT_LCG69069 (R101) and INIT_INT (R102), and this hardware's choice. -/
def Obligations.IntegerSeedRecurrences : Prop :=
  (∀ s : Word, (initGenrand s).length = 624 ∧ (initGenrand s).getD 0 0 = s ∧
    ∀ i, 1 ≤ i → i ≤ 623 → (initGenrand s).getD i 0 =
      1812433253 * ((initGenrand s).getD (i - 1) 0 ^^^ ((initGenrand s).getD (i - 1) 0 >>> 30)) + BitVec.ofNat 32 i) ∧
  (∀ s : Word, (initLcg69069 s).length = 624 ∧ (initLcg69069 s).getD 0 0 = s ∧
    ∀ i, 1 ≤ i → i ≤ 623 → (initLcg69069 s).getD i 0 = 69069 * (initLcg69069 s).getD (i - 1) 0) ∧
  (∀ s : Word, initInt .genrand s = initGenrand s ∧ initInt .lcg69069 s = initLcg69069 s ∧
    initInt hw.intSeedAlg s = initGenrand s)

/-- SEED is idempotent: what it leaves of the generator is a function of SEED_HI:SEED_LO alone, so the same NEXT
commands read the same words, and it keeps SEED_LO, SEED_HI, KEYLEN, KEY and ERR (41_seeding.md R104). -/
def Obligations.SeedIsIdempotent : Prop :=
  ∀ s₁ s₂ t₁ t₂ : State, s₁.busy = true → s₂.busy = true → s₁.config = s₂.config →
    s₁.seedLo = s₂.seedLo → s₁.seedHi = s₂.seedHi →
    exec .seed s₁ = .next t₁ → exec .seed s₂ = .next t₂ →
    t₁.mt = t₂.mt ∧ t₁.cursor = t₂.cursor ∧ t₁.origSeed = t₂.origSeed ∧ t₁.seeded = t₂.seeded ∧ t₁.src = t₂.src ∧
    t₁.out = t₂.out ∧ t₁.twists = t₂.twists ∧
    t₁.seedLo = s₁.seedLo ∧ t₁.seedHi = s₁.seedHi ∧ t₁.keyLen = s₁.keyLen ∧ t₁.key = s₁.key ∧ t₁.err = s₁.err ∧
    ∀ n, ∃ u₁ u₂, nextTimes n t₁ = .next u₁ ∧ nextTimes n t₂ = .next u₂ ∧ u₁.out = u₂.out

/-- The array seeding forces the whole first word, and after a seeding the bits the twist reads are not all zero: by
that word for SEEDA, by two consecutive words never both zero for GENRAND; under LCG69069 the array is all zero
exactly for seed 0 (41_seeding.md R108, R111). -/
def Obligations.SeededArrayNotAllZero : Prop :=
  (∀ key : List Word, (initArray key).getD 0 0 = 0x80000000) ∧
  (∀ (s : Word) (i : Nat), 1 ≤ i → i ≤ 623 → (initGenrand s).getD (i - 1) 0 = 0 →
    (initGenrand s).getD i 0 = BitVec.ofNat 32 i ∧ (initGenrand s).getD i 0 ≠ 0) ∧
  (∀ s : Word, ∃ i, 1 ≤ i ∧ i ≤ 623 ∧ (initGenrand s).getD i 0 ≠ 0) ∧
  (∀ s : Word, (∀ w ∈ initLcg69069 s, w = 0) ↔ s = 0)

/-- Array seeding: INIT_GENRAND(19650218), then max(624, L) steps of pass 1, 623 of pass 2, and the force. Pass 1
starts at i = 1, j = 0 and after n steps stands at i = n mod 623 + 1 and j = n mod L; pass 2 goes on from the index it
is given in the same way, whatever j is; each step mixes one word, and at a wrap the first word takes the last one's
value (41_seeding.md R105, R106, R107, R108). -/
def Obligations.ArraySeedingIndices : Prop :=
  (∀ key : List Word, initArray key =
    (repeatMix pass2Step 623 (repeatMix (pass1Step key) (max 624 key.length)
      { A := initGenrand 19650218, i := 1, j := 0 })).A.set 0 0x80000000) ∧
  ∀ (key A : List Word) (n : Nat), key ≠ [] → A.length = 624 →
    let x := repeatMix (pass1Step key) n { A := A, i := 1, j := 0 }
    let y := pass1Step key x
    x.i = n % 623 + 1 ∧ x.j = n % key.length ∧
    y.A.getD x.i 0 = (x.A.getD x.i 0 ^^^ ((x.A.getD (x.i - 1) 0 ^^^ (x.A.getD (x.i - 1) 0 >>> 30)) * 1664525)) +
      key.getD x.j 0 + BitVec.ofNat 32 x.j ∧
    (∀ k, k < 624 → k ≠ x.i → k ≠ 0 → y.A.getD k 0 = x.A.getD k 0) ∧
    (y.A.getD 0 0 = if x.i = 623 then y.A.getD 623 0 else x.A.getD 0 0) ∧
    ∀ i j, 1 ≤ i → i ≤ 623 →
      let u := repeatMix pass2Step n { A := A, i := i, j := j }
      let v := pass2Step u
      u.i = (n + i - 1) % 623 + 1 ∧
      v.A.getD u.i 0 = (u.A.getD u.i 0 ^^^ ((u.A.getD (u.i - 1) 0 ^^^ (u.A.getD (u.i - 1) 0 >>> 30)) * 1566083941)) -
        BitVec.ofNat 32 u.i ∧
      (∀ k, k < 624 → k ≠ u.i → k ≠ 0 → v.A.getD k 0 = u.A.getD k 0) ∧
      (v.A.getD 0 0 = if u.i = 623 then v.A.getD 623 0 else u.A.getD 0 0)

/-- After seeding, bits 30:0 of MT[0] affect no later word: TWIST reads the old MT[0] only through its bit 31
(41_seeding.md R112). -/
def Obligations.FirstWordLowBitsUnread : Prop :=
  ∀ (A : List Word) (v : Word), A.length = 624 → v.getLsbD 31 = (A.getD 0 0).getLsbD 31 → twist (A.set 0 v) = twist A

/-! ## Twist -/

/-- The in-place ascending twist is the three-segment form, and any array that obeys it is the twist (42_twist.md
R131, R137). -/
def Obligations.TwistIsThreeSegments : Prop :=
  ∀ O N : List Word, O.length = 624 → (N = twist O ↔ ThreeSegments O N)

/-- TW, the three facts about it and its examples (42_twist.md R133). -/
def Obligations.OneWordTwistFacts : Prop :=
  (∀ a b c : Word,
    twistWord a b c = c ^^^ (((a &&& 0x80000000) ||| (b &&& 0x7FFFFFFF)) >>> 1) ^^^
      (if b.getLsbD 0 then 0x9908B0DF else 0) ∧
    ((a &&& 0x80000000) ||| (b &&& 0x7FFFFFFF)).getLsbD 0 = b.getLsbD 0 ∧
    (((a &&& 0x80000000) ||| (b &&& 0x7FFFFFFF)) >>> 1).getLsbD 31 = false ∧
    (((a &&& 0x80000000) ||| (b &&& 0x7FFFFFFF)) >>> 1).getLsbD 30 = a.getLsbD 31 ∧
    ∀ a' : Word, a'.getLsbD 31 = a.getLsbD 31 → twistWord a' b c = twistWord a b c) ∧
  twistWord 0 0 0 = 0 ∧ twistWord 0 1 0 = 0x9908B0DF ∧ twistWord 0x80000000 0 0 = 0x40000000 ∧
  twistWord 0x80000000 1 0 = 0xD908B0DF ∧ twistWord 0xFFFFFFFF 0x80000000 0x12345678 = 0x52345678

/-- TWIST maps an all-zero state array to itself, and every later output is then 0 (42_twist.md R134). -/
def Obligations.AllZeroStateStaysZero : Prop :=
  ∀ A : List Word, A.length = 624 → (∀ w ∈ A, w = 0) →
    twist A = A ∧
    ∀ (s : State) (n : Nat), s.busy = false → s.seeded = true → s.mt = A.map some →
      ∃ t, nextTimes n s = .next t ∧ t.mt = A.map some ∧ (1 ≤ n → t.out = 0)

/-- Each generation is the next 624 terms of one sequence, and is what MT holds after that many twists since seeding;
into the sequence x[0] enters only through its bit 31 (42_twist.md R135). -/
def Obligations.GenerationsAreOneSequence : Prop :=
  ∀ (A : List Word) (x : Nat → Word), A.length = 624 → (∀ k, k < 624 → x k = A.getD k 0) → IsTwistSequence x →
    (∀ g k, k < 624 → (Nat.iterate twist g A).getD k 0 = x (624 * g + k)) ∧
    (∀ (s u : State) (c : Nat), JustSeeded A s → nextTimes c s = .next u →
      u.mt = (Nat.iterate twist ((c + 623) / 624) A).map some ∧ u.twists = BitVec.ofNat 32 ((c + 623) / 624)) ∧
    (∀ x' : Nat → Word, IsTwistSequence x' → (x' 0).getLsbD 31 = (x 0).getLsbD 31 →
      (∀ k, 1 ≤ k → k < 624 → x' k = x k) → ∀ n, 1 ≤ n → x' n = x n)

/-- The two orders that are not conforming: twisting from the old array alone agrees up to word 226 and differs on
some array at word 227; the pre-twist MT[0] at k = 623 agrees up to word 622 and differs on some array at word 623
(42_twist.md R136). -/
def Obligations.OtherTwistOrdersDiffer : Prop :=
  (∀ A : List Word, A.length = 624 →
    (∀ k, k < 227 → (twistAllOld A).getD k 0 = (twist A).getD k 0) ∧
    (∀ k, k < 623 → (twistOldFirst A).getD k 0 = (twist A).getD k 0)) ∧
  (∃ A : List Word, A.length = 624 ∧ (twistAllOld A).getD 227 0 ≠ (twist A).getD 227 0) ∧
  (∃ A : List Word, A.length = 624 ∧ (twistOldFirst A).getD 623 0 ≠ (twist A).getD 623 0)

/-! ## Extraction -/

/-- TEMPER is a bijection, and only 0 tempers to 0. Its four steps have one of two forms; in each the added term
depends, bit by bit, only on the bits above, or only on those below; and every step of either form is a bijection
(43_extract.md R154). -/
def Obligations.TemperIsBijective : Prop :=
  let right := fun (k : Nat) (m y : Word) => y ^^^ ((y >>> k) &&& m)
  let left := fun (k : Nat) (m y : Word) => y ^^^ ((y <<< k) &&& m)
  Function.Bijective temper ∧ (∀ y, temper y = 0 ↔ y = 0) ∧
  (∀ y, temper y = right 18 0xFFFFFFFF (left 15 0xEFC60000 (left 7 0x9D2C5680 (right 11 0xFFFFFFFF y)))) ∧
  ∀ (k : Nat) (m : Word), 1 ≤ k →
    Function.Bijective (right k m) ∧ Function.Bijective (left k m) ∧
    ∀ (y z : Word) (p : Nat),
      ((∀ q, p < q → y.getLsbD q = z.getLsbD q) → ((y >>> k) &&& m).getLsbD p = ((z >>> k) &&& m).getLsbD p) ∧
      ((∀ q, q < p → y.getLsbD q = z.getLsbD q) → ((y <<< k) &&& m).getLsbD p = ((z <<< k) &&& m).getLsbD p)

/-- After a seeding, NEXT number c returns TEMPER(x[623 + c]) with CURSOR = (c - 1) mod 624 + 1 and TWISTS = (c - 1) /
624 + 1 modulo 2^32, where x is the twist sequence of the seeded array: a function of SEED_LO alone for SEED and of
the key for SEEDA (43_extract.md R152, R153). -/
def Obligations.NextStreamAfterSeeding : Prop :=
  ∀ (s t : State) (A : List Word) (x : Nat → Word), s.busy = true →
    ((exec .seed s = .next t ∧ A = initInt s.config.intSeedAlg s.seedLo) ∨
      (exec .seeda s = .next t ∧ ∃ key, keyOperand s = .ok key ∧ A = initArray key)) →
    (∀ k, k < 624 → x k = A.getD k 0) → IsTwistSequence x →
    ∀ c, 1 ≤ c → ∃ u, nextTimes c t = .next u ∧ u.out = temper (x (623 + c)) ∧
      u.cursor.toNat = (c - 1) % 624 + 1 ∧ u.twists = BitVec.ofNat 32 ((c - 1) / 624 + 1) ∧
      ∃ v, nextTimes (c - 1) t = .next v ∧ (u.twists = v.twists + 1 ↔ c % 624 = 1) ∧ (u.mt ≠ v.mt → c % 624 = 1)

/-- The Host can derive the number of NEXT commands since seeding from TWISTS and CURSOR (60_exceptions.md R214, with
the bound at which TWISTS has not yet wrapped; see log entry 12). -/
def Obligations.NextCountIsObservable : Prop :=
  ∀ (A : List Word) (t u : State) (c : Nat), JustSeeded A t → nextTimes c t = .next u → c ≤ 624 * (2 ^ 32 - 1) →
    c = if u.twists = 0 then 0 else 624 * (u.twists.toNat - 1) + u.cursor.toNat

/-! ## The register window -/

/-- BusError: an access that is not 32 bits wide or not aligned, or at a reserved offset, and a write to a read-only
location, and no other access (20_memory.md R52, R58; 60_exceptions.md R207). -/
def Obligations.BusErrorsExactly : Prop :=
  ∀ (s : State) (w : Width) (off : Nat) (v : Word), off < 0x4000 →
    (hostRead w off s = .fault (.busError off) ↔ w ≠ .w32 ∨ off % 4 ≠ 0 ∨ reservedOffset s.config off) ∧
    (hostWrite w off v s = .fault (.busError off) ↔
      w ≠ .w32 ∨ off % 4 ≠ 0 ∨ reservedOffset s.config off ∨ readOnlyOffset off)

/-- Register reads (20_memory.md R54): exact for CMD, SEED_LO, SEED_HI, KEYLEN, ID and KEYMAX; exact for the others
while BUSY = 0; while BUSY = 1 STATUS shows BUSY and ERR exactly and OUT, ORIG_SEED and TWISTS read a draw. -/
def Obligations.RegisterReads : Prop :=
  ∀ s : State,
    hostRead .w32 0x000 s = .next (0, s) ∧ hostRead .w32 0x008 s = .next (s.seedLo, s) ∧
    hostRead .w32 0x00C s = .next (s.seedHi, s) ∧ hostRead .w32 0x010 s = .next (s.keyLen, s) ∧
    hostRead .w32 0x024 s = .next (0x4D543139, s) ∧ hostRead .w32 0x028 s = .next (BitVec.ofNat 32 s.config.keyMax, s) ∧
    (s.busy = false →
      hostRead .w32 0x004 s = .next (statusWord s.cursor s.err s.src s.seeded false, s) ∧
      hostRead .w32 0x014 s = .next (s.out, s) ∧
      hostRead .w32 0x018 s = .next (s.origSeed.extractLsb' 0 32, s) ∧
      hostRead .w32 0x01C s = .next (s.origSeed.extractLsb' 32 32, s) ∧
      hostRead .w32 0x020 s = .next (s.twists, s)) ∧
    (s.busy = true →
      (∃ c a b, hostRead .w32 0x004 s = .next (statusWord c s.err a b true, { s with draws := s.draws + 1 })) ∧
      ∀ off, off ∈ [0x014, 0x018, 0x01C, 0x020] →
        ∃ v, hostRead .w32 off s = .next (v, { s with draws := s.draws + 1 }))

/-- The fields of STATUS with the codes of ERR (60_exceptions.md R201), the reserved bits reading 0, and BUSY and ERR
read exactly whether or not a command is pending (10_state.md R39). -/
def Obligations.StatusFields : Prop :=
  (ErrCode.code .noError = 0 ∧ ErrCode.code .invalidSeed = 1 ∧ ErrCode.code .notSeeded = 2 ∧
    ErrCode.code .illegalCmd = 3 ∧ ErrCode.code .busyErr = 4) ∧
  (∀ (c : BitVec 10) (e : ErrCode) (src seeded busy : Bool),
    let w := statusWord c e src seeded busy
    w.getLsbD 0 = busy ∧ w.getLsbD 1 = seeded ∧ w.getLsbD 2 = src ∧ w.getLsbD 3 = false ∧
    w.extractLsb' 4 4 = e.code ∧ w.extractLsb' 8 8 = 0 ∧ w.extractLsb' 16 10 = c ∧ w.extractLsb' 26 6 = 0) ∧
  (∀ (s t : State) (w : Word), hostRead .w32 0x004 s = .next (w, t) →
    w.getLsbD 0 = s.busy ∧ w.extractLsb' 4 4 = s.err.code ∧
    (s.busy = false → w.extractLsb' 16 10 = s.cursor ∧ w.getLsbD 1 = s.seeded ∧ w.getLsbD 2 = s.src)) ∧
  (∀ s : State, s.busy = true → ∃ c a b,
    hostRead .w32 0x004 s = .next (statusWord c s.err a b true, { s with draws := s.draws + 1 })) ∧
  (∀ (s : State) (v : Word), hostWrite .w32 0x004 v s = .fault (.busError 0x004)) ∧
  hostRead .w32 0x004 State.reset = .next (0x02700000, State.reset)

/-- The key window (20_memory.md R56): a write stores the word and nothing else, or is discarded while BUSY = 1; a
read is exact, or faults on an UNWRITTEN word; beyond KEY_MAX every access raises BusError. -/
def Obligations.KeyWindowAccesses : Prop :=
  ∀ (s : State) (i : Nat) (v : Word),
    (i < s.config.keyMax → i ≤ 1023 →
      (s.busy = false → ∃ t, hostWrite .w32 (0x1000 + 4 * i) v s = .next t ∧ t = { s with key := t.key } ∧
        hostRead .w32 (0x1000 + 4 * i) t = .next (v, t) ∧
        (∀ j, j ≠ i → keyWord t j = keyWord s j) ∧
        (∀ a, a < 0x1000 + 4 * i ∨ 0x1000 + 4 * i + 4 ≤ a → t.key.readByte a = s.key.readByte a)) ∧
      (s.busy = true → hostWrite .w32 (0x1000 + 4 * i) v s =
        .next { s with err := if s.err = .noError then .busyErr else s.err }) ∧
      (keyWord s i = none → hostRead .w32 (0x1000 + 4 * i) s = .fault (.unwrittenKeyRead i)) ∧
      (∀ u, keyWord s i = some u → hostRead .w32 (0x1000 + 4 * i) s = .next (u, s))) ∧
    (s.config.keyMax ≤ i → i ≤ 1023 →
      hostRead .w32 (0x1000 + 4 * i) s = .fault (.busError (0x1000 + 4 * i)) ∧
      hostWrite .w32 (0x1000 + 4 * i) v s = .fault (.busError (0x1000 + 4 * i)))

/-- The state window (20_memory.md R57): a read shows the word as stored, a draw while BUSY = 1, a fault on an
UNWRITTEN word; a write raises BusError, as does every access beyond word 623. -/
def Obligations.StateWindowAccesses : Prop :=
  ∀ (s : State) (i : Nat) (v : Word),
    (i ≤ 623 →
      (s.busy = true → ∃ u, hostRead .w32 (0x2000 + 4 * i) s = .next (u, { s with draws := s.draws + 1 })) ∧
      (s.busy = false → mtWord s i = none → hostRead .w32 (0x2000 + 4 * i) s = .fault (.unseededStateRead i)) ∧
      (∀ u, s.busy = false → s.mt[i]? = some (some u) → hostRead .w32 (0x2000 + 4 * i) s = .next (u, s)) ∧
      hostWrite .w32 (0x2000 + 4 * i) v s = .fault (.busError (0x2000 + 4 * i))) ∧
    ∀ (w : Width) (off : Nat), 0x29C0 ≤ off → off ≤ 0x2FFF →
      hostRead w off s = .fault (.busError off) ∧ hostWrite w off v s = .fault (.busError off)

/-- Reads change no state but the count of draws; operand writes are idempotent while BUSY = 0; a discarded write has
the one side effect seterr(BUSY_ERR); a CMD write is not idempotent, since each accepted one issues a command
(20_memory.md R60). -/
def Obligations.AccessSideEffects : Prop :=
  (∀ (w : Width) (off : Nat) (s t : State) (v : Word), hostRead w off s = .next (v, t) →
    t = { s with draws := t.draws }) ∧
  (∀ (off : Nat) (s : State) (v : Word), s.busy = false → commandOrOperandOffset s.config off → off ≠ 0x000 →
    ∃ t, hostWrite .w32 off v s = .next t ∧ hostWrite .w32 off v t = .next t) ∧
  (∀ (off : Nat) (s : State) (v : Word), s.busy = true → commandOrOperandOffset s.config off →
    hostWrite .w32 off v s = .next { s with err := if s.err = .noError then .busyErr else s.err }) ∧
  (∀ (s t u : State) (A : List Word), s.busy = false → s.seeded = true → s.mt = A.map some → A.length = 624 →
    s.cursor.toNat ≤ 624 → runCommand .next s = .next t → runCommand .next t = .next u →
    t.cursor ≠ s.cursor ∧ u.cursor ≠ t.cursor)

/-- Operand writes while BUSY = 0 store the word and change nothing else (20_memory.md R55). -/
def Obligations.OperandWrites : Prop :=
  ∀ (s : State) (v : Word), s.busy = false →
    hostWrite .w32 0x008 v s = .next { s with seedLo := v } ∧
    hostWrite .w32 0x00C v s = .next { s with seedHi := v } ∧
    hostWrite .w32 0x010 v s = .next { s with keyLen := v }

/-- The window stands at BASE on the Host's bus, wherever the platform has put it (20_memory.md R50). -/
def Obligations.WindowStandsAtBase : Prop :=
  ∀ page : Nat, base page % 0x4000 = 0 ∧
    ∀ (s : State) (w : Width) (v : Word) (a : Nat),
      (∀ off, off < 0x4000 → a = base page + off →
        busRead page w a s = hostRead w off s ∧ busWrite page w a v s = hostWrite w off v s) ∧
      (a < base page ∨ base page + 0x4000 ≤ a →
        busRead page w a s = .refused (.outsideWindow a) ∧ busWrite page w a v s = .refused (.outsideWindow a))

/-! ## Reset and invariants -/

/-- Hardware reset, also while a command is pending, gives every item of the block its reset value
(70_reset_and_hazards.md R230); STATUS then reads 0x02700000, ID and KEYMAX their constants, and no key word or state
word is written. -/
def Obligations.ResetInputResetsBlock : Prop :=
  ∀ s : State, nextMove s = .reset →
    ∃ t, step s = .next t ∧ (∀ i, mtWord t i = none) ∧ t.cursor = 624 ∧ t.origSeed = 0 ∧ t.seeded = false ∧
      t.src = false ∧ t.busy = false ∧ t.pending = none ∧ t.err = .noError ∧ t.out = 0 ∧ t.twists = 0 ∧
      t.seedLo = 0 ∧ t.seedHi = 0 ∧ t.keyLen = 0 ∧ (∀ i, keyWord t i = none) ∧
      hostRead .w32 0x004 t = .next (0x02700000, t) ∧ hostRead .w32 0x024 t = .next (0x4D543139, t) ∧
      hostRead .w32 0x028 t = .next (BitVec.ofNat 32 s.config.keyMax, t)

/-- What is not the block's stays at a reset: the Host's program, position, r and transactions, the moves after the
reset, and the count of draws. The model's own choice (log entry 2): 70_reset_and_hazards.md R230 speaks of the
block's items alone. -/
def Obligations.ResetLeavesHost : Prop :=
  ∀ s t : State, nextMove s = .reset → step s = .next t →
    t.prog = s.prog ∧ t.pos = s.pos ∧ t.r = s.r ∧ t.trace = s.trace ∧ t.sched = s.sched.tail ∧ t.draws = s.draws

/-- The invariant holds right after reset, whatever program the Host has and whatever order of moves is given. -/
def Obligations.ResetMeetsInvariant : Prop :=
  ∀ (c : Config) (p : List Stmt) (l : List Move), c.wf = true →
    Inv { State.reset with config := c, prog := p, sched := l }

/-- Every step from every state that meets the invariant gives a state that meets it: the state array keeps its 624
words, CURSOR stays at most 624, PENDING is NONE exactly when BUSY = 0, MT is written exactly while SEEDED = 1, a
pending command keeps the conditions of its issue, and the key RAM keeps its canonical form behind its window. -/
def Obligations.StepKeepsInvariant : Prop :=
  ∀ s t : State, Inv s → step s = .next t → Inv t

/-- The configuration is fixed for the machine (00_scope.md R7): no step changes it, and after reset it is this
hardware's. -/
def Obligations.ConfigurationIsFixed : Prop :=
  (∀ s t : State, step s = .next t → t.config = s.config) ∧
  State.reset.config.intSeedAlg = .genrand ∧ State.reset.config.keyMax = 624 ∧ State.reset.config.floatPolicy = .open01

/-- In no state that any Host program reaches under any order of moves does a step raise one of the model's internal
faults (log entry 10): what the issue checks guarantee still holds when the command completes (30_encoding.md R89,
10_state.md R28). -/
def Obligations.InternalFaultsUnreachable : Prop :=
  ∀ s : State, Reachable s →
    step s ≠ .fault .noPending ∧ step s ≠ .fault .unwrittenStateUse ∧ step s ≠ .fault .keyLengthAtCompletion

/-- With no order of moves given from outside, an accepted command whose key is written completes at the next step:
the fairness of 70_reset_and_hazards.md R241 as the model's default order has it (log entry 2). -/
def Obligations.UnorderedCommandCompletes : Prop :=
  ∀ s : State, Inv s → s.busy = true → s.sched = [] →
    (s.pending = some .seeda → ∀ j, j < s.keyLen.toNat → keyWord s j ≠ none) →
    ∃ t, step s = .next t ∧ t.busy = false

/-- A Host that does not wait: a second NEXT written while one is pending is discarded with BUSY_ERR if the Host moves
first, and accepted if the Engine moves first; both orders are admitted (60_exceptions.md R209,
70_reset_and_hazards.md R234). -/
def Obligations.BusyHazardHasTwoOutcomes : Prop :=
  ∀ (s : State) (A : List Word) (l : List Move), s.busy = true → s.pending = some .next → s.seeded = true →
    s.mt = A.map some → A.length = 624 → s.prog[s.pos]? = some (.wr .w32 0x000 3) →
    (∃ t, step { s with sched := .host :: l } = .next t ∧ t.err = (if s.err = .noError then .busyErr else s.err) ∧
      t.busy = true ∧ t.pending = some .next ∧ t.out = s.out ∧ t.pos = s.pos + 1) ∧
    (∃ t u, step { s with sched := .engine :: .host :: l } = .next t ∧ step t = .next u ∧ t.busy = false ∧
      u.busy = true ∧ u.pending = some .next ∧ u.err = s.err ∧ u.pos = s.pos + 1)

/-! ## The Host's assembler and its float mapping -/

/-- The expansions of 30_encoding.md R88: `seed`, `seeda`, `next`, `clrerr`, `wait`, `chkerr` and `cmd`, each as the
whole program, and `repeat`: its body's expansion written out n times, in any place, and n extractions as a whole
program. -/
def Obligations.PseudoInstructionsExpand : Prop :=
  ∀ c : Config,
    (∀ S, S < 2 ^ 64 → assemble c (.line none (.seed S) .done) =
      .ok [.wr .w32 0x008 (BitVec.ofNat 32 S), .wr .w32 0x00C (BitVec.ofNat 32 (S / 2 ^ 32)), .wr .w32 0x000 1,
        .rd .w32 0x004, .bbusy 3]) ∧
    (∀ ks : List Nat, 1 ≤ ks.length → ks.length ≤ c.keyMax → (∀ k ∈ ks, k < 2 ^ 32) →
      assemble c (.line none (.seeda ks) .done) =
        .ok (ks.mapIdx (fun i k => .wr .w32 (0x1000 + 4 * i) (BitVec.ofNat 32 k)) ++
          [.wr .w32 0x010 (BitVec.ofNat 32 ks.length), .wr .w32 0x000 2, .rd .w32 0x004, .bbusy (ks.length + 2)])) ∧
    assemble c (.line none .next .done) = .ok [.wr .w32 0x000 3, .rd .w32 0x004, .bbusy 1, .rd .w32 0x014] ∧
    assemble c (.line none .clrerr .done) = .ok [.wr .w32 0x000 4, .rd .w32 0x004, .bbusy 1] ∧
    assemble c (.line none .wait .done) = .ok [.rd .w32 0x004, .bbusy 0] ∧
    assemble c (.line none .chkerr .done) = .ok [.rd .w32 0x004] ∧
    (∀ e ∈ [("SEED", 1), ("SEEDA", 2), ("NEXT", 3), ("CLRERR", 4)],
      assemble c (.line none (.cmd e.1) .done) = .ok [.wr .w32 0x000 e.2]) ∧
    (∀ (n : Nat) (body rest : Source) (x y : List Item), expand c body = .ok x → expand c rest = .ok y →
      expand c (.rep none n body rest) = .ok ((List.replicate n x).flatten ++ y)) ∧
    ∀ n, assemble c (.rep none n (.line none .next .done) .done) =
      .ok ((List.range n).flatMap fun k =>
        [.wr .w32 0x000 3, .rd .w32 0x004, .bbusy (4 * k + 1), .rd .w32 0x014])

/-- `wr` and `rd` at every kind of location (30_encoding.md R88, 10_state.md R38), and, in every program, the
statements in their order and the targets of its branches: a `bbusy` to a label that stands once goes to the statement
that the label stands before, forward or backward, and the `bbusy` of a `wait` to the read before it; and a program
all of whose branches have such a label with a statement after it is assembled (R88). That a label whose own line
expands to no statement stands before the next statement of the program is the model's choice (log entry 11). -/
def Obligations.LocationsAssemble : Prop :=
  (∀ (c : Config) (v : Nat), v < 2 ^ 32 →
    let reads := fun l off => assemble c (.line none (.rd l) .done) = .ok [.rd .w32 off]
    let writes := fun l off => assemble c (.line none (.wr l v) .done) = .ok [.wr .w32 off (BitVec.ofNat 32 v)]
    (∀ e ∈ [("CMD", 0x000), ("STATUS", 0x004), ("SEED_LO", 0x008), ("SEED_HI", 0x00C), ("KEYLEN", 0x010), ("OUT", 0x014),
        ("ORIG_SEED_LO", 0x018), ("ORIG_SEED_HI", 0x01C), ("TWISTS", 0x020), ("ID", 0x024), ("KEYMAX", 0x028)],
      reads (.name e.1) e.2 ∧ writes (.name e.1) e.2) ∧
    (∀ i, i < c.keyMax → reads (.key i) (0x1000 + 4 * i) ∧ writes (.key i) (0x1000 + 4 * i)) ∧
    (∀ i, i ≤ 623 → reads (.state i) (0x2000 + 4 * i) ∧ writes (.state i) (0x2000 + 4 * i)) ∧
    (∀ off, reads (.number off) off ∧ writes (.number off) off) ∧
    ∀ L, assemble c (.line none .chkerr (.line (some L) .wait (.line none (.bbusy L) .done))) =
      .ok [.rd .w32 0x004, .rd .w32 0x004, .bbusy 1, .bbusy 1]) ∧
  ∀ (c : Config) (p : Source) (items : List Item), expand c p = .ok items →
    let standsOnce := fun (L : String) (before after : List Item) =>
      items = before ++ .label L :: after ∧ .label L ∉ before ∧ .label L ∉ after
    (∀ l, assemble c p = .ok l →
      l.length = statementCount items ∧
      ∀ pre x post, items = pre ++ x :: post →
        (∀ off v, x = .wr off v → l[statementCount pre]? = some (.wr .w32 off v)) ∧
        (∀ off, x = .rd off → l[statementCount pre]? = some (.rd .w32 off)) ∧
        (x = .bbusyBack → l[statementCount pre]? = some (.bbusy (statementCount pre - 1))) ∧
        ∀ L before after, x = .bbusy L → standsOnce L before after →
          l[statementCount pre]? = some (.bbusy (statementCount before)) ∧ statementCount before < l.length) ∧
    ((∀ L, .bbusy L ∈ items → ∃ before after, standsOnce L before after ∧ 0 < statementCount after) →
      ∃ l, assemble c p = .ok l)

/-- What the assembler refuses (30_encoding.md R88), on a line with any label and before any program: a value of 2^32
or more, an unknown name, a KEY(i) with i >= KEY_MAX, a STATE(i) with i > 623, and a `seeda` with L = 0 or L >
KEY_MAX. What is refused in expansion is refused as a program, in the body of a `repeat`, after a line and after a
`repeat`. That it is refused in the body of a `repeat 0` too, which R88 does not say, is the model's choice (log entry
11). -/
def Obligations.AssemblerRefusals : Prop :=
  ∀ (c : Config) (lab : Option String) (rest : Source),
    let refused := fun s => ∃ e, expand c (.line lab s rest) = .error e
    (∀ l v, 2 ^ 32 ≤ v → refused (.wr l v)) ∧
    (∀ ks : List Nat, (∃ k ∈ ks, 2 ^ 32 ≤ k) → refused (.seeda ks)) ∧
    (∀ n, n ∉ ["CMD", "STATUS", "SEED_LO", "SEED_HI", "KEYLEN", "OUT", "ORIG_SEED_LO", "ORIG_SEED_HI", "TWISTS", "ID",
        "KEYMAX"] → refused (.rd (.name n)) ∧ ∀ v, refused (.wr (.name n) v)) ∧
    (∀ op, op ∉ ["SEED", "SEEDA", "NEXT", "CLRERR"] → refused (.cmd op)) ∧
    (∀ i, c.keyMax ≤ i → refused (.rd (.key i)) ∧ ∀ v, refused (.wr (.key i) v)) ∧
    (∀ i, 623 < i → refused (.rd (.state i)) ∧ ∀ v, refused (.wr (.state i) v)) ∧
    (∀ ks : List Nat, ks.length = 0 ∨ c.keyMax < ks.length → refused (.seeda ks)) ∧
    ∀ p, (∃ e, expand c p = .error e) →
      (∃ e, assemble c p = .error e) ∧ (∀ s, ∃ e, expand c (.line lab s p) = .error e) ∧
      ∀ n, (∃ e, expand c (.rep lab n p rest) = .error e) ∧ ∃ e, expand c (.rep lab n rest p) = .error e

/-- A `bbusy` of an assembled program goes to a statement of the same program (30_encoding.md R88). -/
def Obligations.BranchTargetsInProgram : Prop :=
  ∀ (c : Config) (p : Source) (l : List Stmt), assemble c p = .ok l → ∀ t, .bbusy t ∈ l → t < l.length

/-- OPEN01, the mapping of the policy of that name (45_host_float.md R180, R181): exactly (2w + 1) / 2^33, strictly
inside (0, 1), and its examples. -/
def Obligations.OpenMappingIsExact : Prop :=
  (∀ w : Word, uniform .open01 w = open01 w) ∧
  (∀ w : Word, scaledValue (open01 w) * 2 ^ 33 = (2 * w.toNat + 1) * 2 ^ 1075 ∧
    (open01 w).getLsbD 63 = false ∧ 2 ^ (1075 - 33) ≤ scaledValue (open01 w) ∧
    scaledValue (open01 w) + 2 ^ (1075 - 33) ≤ 2 ^ 1075) ∧
  open01 0 = 0x3DE0000000000000 ∧ open01 0xFFFFFFFF = 0x3FEFFFFFFFF00000 ∧ open01 1067595299 = 0x3FCFD11B11C00000

/-- HALFOPEN01, the mapping of the policy of that name (45_host_float.md R180, R182): exactly w / 2^32, in [0, 1 -
2^-32], and its examples. -/
def Obligations.HalfOpenMappingIsExact : Prop :=
  (∀ w : Word, uniform .halfOpen01 w = halfOpen01 w) ∧
  (∀ w : Word, scaledValue (halfOpen01 w) * 2 ^ 32 = w.toNat * 2 ^ 1075 ∧ (halfOpen01 w).getLsbD 63 = false ∧
    scaledValue (halfOpen01 w) + 2 ^ (1075 - 32) ≤ 2 ^ 1075) ∧
  halfOpen01 0 = 0 ∧ halfOpen01 0x80000000 = 0x3FE0000000000000 ∧ halfOpen01 0xFFFFFFFF = 0x3FEFFFFFFFE00000

/-- CLOSED01, the mapping of the policy of that name (45_host_float.md R180, R183): within half a unit in the last
place of w / (2^32 - 1), in [0, 1], exactly 1.0 at the largest word, and its examples. -/
def Obligations.ClosedMappingIsNearest : Prop :=
  (∀ w : Word, uniform .closed01 w = closed01 w) ∧
  (∀ w : Word,
    let v := scaledValue (closed01 w)
    let ulp := 2 ^ ((closed01 w).extractLsb' 52 11).toNat
    2 * (v * (2 ^ 32 - 1)) ≤ 2 * (w.toNat * 2 ^ 1075) + ulp * (2 ^ 32 - 1) ∧
    2 * (w.toNat * 2 ^ 1075) ≤ 2 * (v * (2 ^ 32 - 1)) + ulp * (2 ^ 32 - 1) ∧
    (closed01 w).getLsbD 63 = false ∧ v ≤ 2 ^ 1075) ∧
  closed01 1 = 0x3DF0000000100000 ∧ closed01 1067595299 = 0x3FCFD11B119FD11B ∧ closed01 0xFFFFFFFF = 0x3FF0000000000000

/-- next_f64 is the host program `next` and then the mapping of r (45_host_float.md R184), under every order of moves
without a reset: where its run ends, the mapped word is the one that one NEXT leaves in OUT, and the generator and ERR
are as that one NEXT leaves them, accepted or refused; while another command is pending, that command completes first,
or the NEXT is discarded with BUSY_ERR. -/
def Obligations.NextF64TakesOneWord : Prop :=
  (∀ c : Config, assemble c (.line none .next .done) = .ok nextProgram) ∧
  ∀ (n : Nat) (s t : State) (v : BitVec 64), (∀ m ∈ s.sched, m ≠ .reset) → nextF64 n s = .next (some (v, t)) →
    ∃ u, SameGenerator u t ∧ t.r = u.out ∧ v = uniform s.config.floatPolicy u.out ∧
      (s.busy = false → runCommand .next s = .next u) ∧
      (∀ i, s.busy = true → s.pending = some i →
        (∃ w, exec i s = .next w ∧ runCommand .next w = .next u) ∨
          exec i { s with err := if s.err = .noError then .busyErr else s.err } = .next u)

/-- With no order of moves given from outside and no command pending, the run of next_f64 ends within five steps where
NEXT answers a next state, and faults as NEXT faults (45_host_float.md R184; that the Engine then moves first is the
model's default order, log entry 2). -/
def Obligations.NextF64Ends : Prop :=
  ∀ (n : Nat) (s : State), s.busy = false → s.sched = [] →
    (∀ u, runCommand .next s = .next u → 5 ≤ n →
      ∃ t, nextF64 n s = .next (some (uniform s.config.floatPolicy u.out, t))) ∧
    (∀ e, runCommand .next s = .fault e → 2 ≤ n → nextF64 n s = .fault e)
end

