-- ==== Sys2Proof/Laws/Arrays.lean ====
section
/-!
SUPPORT. The state array and the arrays the algorithms work on: written words, lengths, and what a set leaves.
-/

namespace Sys2Proof.Machine

@[simp] theorem length_blankArray : blankArray.length = 624 := List.length_replicate

@[simp] theorem mem_blankArray (w : Option Word) : w ∈ blankArray ↔ w = none := by
  unfold blankArray
  rw [List.mem_replicate]
  exact ⟨fun h => h.2, fun h => ⟨by decide, h⟩⟩

theorem allWritten_map_some (A : List Word) : allWritten (A.map some) = some A := by
  induction A with
  | nil => rfl
  | cons w A ih => simp [allWritten, ih]

theorem eq_map_of_allWritten {l : List (Option Word)} {A : List Word} (h : allWritten l = some A) :
    l = A.map some := by
  induction l generalizing A with
  | nil => simp [allWritten] at h; simp [← h]
  | cons w l ih =>
    cases w with
    | none => simp [allWritten] at h
    | some w =>
      simp only [allWritten] at h
      split at h
      · simp at h
      · rename_i ws e
        simp only [Option.some.injEq] at h
        simp [← h, ih e]

/-- A list has all its words written exactly when none of them is UNWRITTEN. -/
theorem allWritten_isSome_iff (l : List (Option Word)) :
    (allWritten l).isSome = true ↔ ∀ w ∈ l, w.isSome = true := by
  constructor
  · intro h
    obtain ⟨A, hA⟩ := Option.isSome_iff_exists.1 h
    rw [eq_map_of_allWritten hA]
    simp
  · intro h
    have : l = (l.map fun w => w.getD 0).map some := by
      rw [List.map_map]
      conv_lhs => rw [← List.map_id l]
      refine List.map_congr_left fun w hw => ?_
      obtain ⟨v, rfl⟩ := Option.isSome_iff_exists.1 (h w hw)
      rfl
    rw [this, allWritten_map_some]
    rfl

/-- The state array is the words A exactly when MT holds them all and there are 624. -/
theorem mtArray_eq_some_iff (s : State) (A : List Word) :
    mtArray s = some A ↔ s.mt = A.map some ∧ A.length = 624 := by
  unfold mtArray
  constructor
  · intro h
    split at h
    · rename_i hl
      have e := eq_map_of_allWritten h
      exact ⟨e, by rw [e, List.length_map] at hl; exact hl⟩
    · simp at h
  · rintro ⟨h, hl⟩
    rw [if_pos (by rw [h, List.length_map, hl]), h, allWritten_map_some]

theorem mtWord_of_words {s : State} {A : List Word} (h : s.mt = A.map some) {i : Nat} (hi : i < A.length) :
    mtWord s i = some (word A i) := by
  simp [mtWord, h, word, hi]

@[simp] theorem word_set (A : List Word) (i : Nat) (v : Word) (j : Nat) :
    word (A.set i v) j = if i = j ∧ j < A.length then v else word A j := by
  unfold word
  rw [List.getD_eq_getElem?_getD, List.getElem?_set, List.getD_eq_getElem?_getD]
  by_cases h : i = j
  · subst h
    by_cases hl : i < A.length <;> simp [hl]
  · simp [h]

@[simp] theorem length_unfoldFrom (f : Word → Nat → Word) (x : Word) (i n : Nat) : (unfoldFrom f x i n).length = n := by
  induction n generalizing x i with
  | zero => rfl
  | succ n ih => simp [unfoldFrom, ih]

/-- The first word of a recurrence. -/
theorem word_unfoldFrom_zero (f : Word → Nat → Word) (x : Word) (i n : Nat) (h : 0 < n) :
    word (unfoldFrom f x i n) 0 = x := by
  cases n with
  | zero => omega
  | succ n => simp [unfoldFrom, word]

/-- Each following word of a recurrence is one step from the word before it. -/
theorem word_unfoldFrom_succ (f : Word → Nat → Word) (x : Word) (i n k : Nat) (h : k + 1 < n) :
    word (unfoldFrom f x i n) (k + 1) = f (word (unfoldFrom f x i n) k) (i + k + 1) := by
  induction k generalizing x i n with
  | zero =>
    cases n with
    | zero => omega
    | succ n =>
      have := word_unfoldFrom_zero f (f x (i + 1)) (i + 1) n (by omega)
      simpa [unfoldFrom, word] using this
  | succ k ih =>
    cases n with
    | zero => omega
    | succ n =>
      have := ih (f x (i + 1)) (i + 1) n (by omega)
      simp only [unfoldFrom, word, List.getD_cons_succ] at this ⊢
      rw [this, show i + 1 + k + 1 = i + (k + 1) + 1 by omega]

@[simp] theorem length_initGenrand (s : Word) : (initGenrand s).length = 624 := length_unfoldFrom _ _ _ _

@[simp] theorem length_initLcg69069 (s : Word) : (initLcg69069 s).length = 624 := length_unfoldFrom _ _ _ _

@[simp] theorem length_initInt (alg : IntSeedAlg) (s : Word) : (initInt alg s).length = 624 := by
  cases alg <;> simp [initInt]

@[simp] theorem length_wrapIndex (A : List Word) (i : Nat) : (wrapIndex A i).1.length = A.length := by
  unfold wrapIndex
  split <;> simp

@[simp] theorem length_pass1Step (key : List Word) (x : Mix) : (pass1Step key x).A.length = x.A.length := by
  simp [pass1Step]

@[simp] theorem length_pass2Step (x : Mix) : (pass2Step x).A.length = x.A.length := by
  simp [pass2Step]

theorem length_repeatMix {f : Mix → Mix} (h : ∀ x, (f x).A.length = x.A.length) (n : Nat) (x : Mix) :
    (repeatMix f n x).A.length = x.A.length := by
  induction n generalizing x with
  | zero => rfl
  | succ n ih => rw [repeatMix, ih, h]

@[simp] theorem length_initArray (key : List Word) : (initArray key).length = 624 := by
  simp [initArray, pass2, pass1, length_repeatMix length_pass2Step, length_repeatMix (length_pass1Step key)]

@[simp] theorem length_twistStep (A : List Word) (k : Nat) : (twistStep A k).length = A.length := by
  simp [twistStep]

@[simp] theorem length_foldl_twistStep (l : List Nat) (A : List Word) : (l.foldl twistStep A).length = A.length := by
  induction l generalizing A with
  | nil => rfl
  | cons k l ih => simp [ih]

@[simp] theorem length_twist (A : List Word) : (twist A).length = A.length := length_foldl_twistStep _ _

/-- The first n + 1 steps of TWIST are the first n and then the step at n. -/
theorem foldl_twistStep_succ (A : List Word) (n : Nat) :
    (List.range (n + 1)).foldl twistStep A = twistStep ((List.range n).foldl twistStep A) n := by
  simp [List.range_succ]

end Sys2Proof.Machine
end

