-- ==== Sys2Proof/Laws/Memory.lean ====
section
/-!
SUPPORT. The laws of the key RAM: a read after a write, and the canonical form that every write keeps.
-/

namespace Sys2Proof.Machine

theorem Memory.readByte_writeByte_same (m : Memory) (a : Nat) (v : Byte) : (m.writeByte a v).readByte a = some v := by
  induction m with
  | nil => simp [Memory.writeByte, Memory.readByte]
  | cons c m ih =>
    obtain ⟨b, u⟩ := c
    simp only [Memory.writeByte]
    split
    · simp [Memory.readByte]
    · split
      · simp [Memory.readByte]
      · rename_i h
        simp [Memory.readByte, h, ih]

theorem Memory.readByte_writeByte_other (m : Memory) {a b : Nat} (v : Byte) (h : b ≠ a) :
    (m.writeByte a v).readByte b = m.readByte b := by
  induction m with
  | nil => simp [Memory.writeByte, Memory.readByte, h]
  | cons c m ih =>
    obtain ⟨d, u⟩ := c
    simp only [Memory.writeByte]
    split
    · simp [Memory.readByte, h]
    · split
      · rename_i h2
        subst h2
        simp [Memory.readByte, h]
      · simp [Memory.readByte, ih]

/-- A read of one byte after a write of one byte. -/
theorem Memory.readByte_writeByte (m : Memory) (a b : Nat) (v : Byte) :
    (m.writeByte a v).readByte b = if b = a then some v else m.readByte b := by
  by_cases h : b = a
  · subst h; simp [Memory.readByte_writeByte_same]
  · simp [Memory.readByte_writeByte_other, h]

/-- Writing the same byte twice is writing it once. -/
theorem Memory.writeByte_idem (m : Memory) (a : Nat) (v : Byte) :
    (m.writeByte a v).writeByte a v = m.writeByte a v := by
  induction m with
  | nil => simp [Memory.writeByte]
  | cons c m ih =>
    obtain ⟨b, u⟩ := c
    by_cases h1 : a < b
    · simp [Memory.writeByte, h1]
    · by_cases h2 : a = b
      · simp [Memory.writeByte, h2]
      · simp [Memory.writeByte, h1, h2, ih]

@[simp] theorem Memory.wf_nil : Memory.wf [] = true := rfl

/-- The canonical form of a list with a first entry. -/
theorem Memory.wf_cons (c : Host.Cell) (m : Memory) :
    Memory.wf (c :: m) = true ↔ (∀ d ∈ m.head?, c.1 < d.1) ∧ m.wf = true := by
  obtain ⟨a, u⟩ := c
  cases m with
  | nil => simp [Memory.wf]
  | cons d m => obtain ⟨b, w⟩ := d; simp [Memory.wf]

/-- The first offset after a write is the written one or the first one before. -/
theorem Memory.head_writeByte (m : Memory) (a : Nat) (v : Byte) :
    ∀ d ∈ (m.writeByte a v).head?, d.1 = a ∨ ∃ e ∈ m.head?, e.1 = d.1 := by
  cases m with
  | nil => simp [Memory.writeByte]
  | cons c m =>
    obtain ⟨b, u⟩ := c
    simp only [Memory.writeByte]
    split
    · simp
    · split <;> simp

/-- Every write of one byte keeps the canonical form. -/
theorem Memory.wf_writeByte {m : Memory} (a : Nat) (v : Byte) (h : m.wf = true) : (m.writeByte a v).wf = true := by
  induction m with
  | nil => simp [Memory.writeByte, Memory.wf]
  | cons c m ih =>
    obtain ⟨b, u⟩ := c
    obtain ⟨h1, h2⟩ := (Memory.wf_cons _ _).1 h
    simp only [Memory.writeByte]
    split
    · rename_i h3
      exact (Memory.wf_cons _ _).2 ⟨by simpa using h3, h⟩
    · split
      · rename_i h3 h4
        exact (Memory.wf_cons _ _).2 ⟨by simpa [h4] using h1, h2⟩
      · rename_i h3 h4
        refine (Memory.wf_cons _ _).2 ⟨fun d hd => ?_, ih h2⟩
        rcases Memory.head_writeByte m a v d hd with h5 | ⟨e, he, h5⟩
        · simp only [h5]; omega
        · rw [← h5]; exact h1 e he

/-- Every write of a word keeps the canonical form. -/
theorem Memory.wf_writeWord {m : Memory} (a : Nat) (v : Word) (h : m.wf = true) : (m.writeWord a v).wf = true :=
  wf_writeByte _ _ (wf_writeByte _ _ (wf_writeByte _ _ (wf_writeByte _ _ h)))

/-- The offsets after a write of one byte. -/
theorem Memory.mem_writeByte {m : Memory} {a : Nat} {v : Byte} {c : Host.Cell} (h : c ∈ m.writeByte a v) :
    c = (a, v) ∨ c ∈ m := by
  induction m with
  | nil => simpa [Memory.writeByte] using h
  | cons d m ih =>
    obtain ⟨b, u⟩ := d
    simp only [Memory.writeByte] at h
    split at h
    · simpa using h
    · split at h
      · rcases List.mem_cons.1 h with h | h
        · exact .inl h
        · exact .inr (List.mem_cons_of_mem _ h)
      · rcases List.mem_cons.1 h with h | h
        · exact .inr (h ▸ List.mem_cons_self)
        · exact (ih h).imp id (List.mem_cons_of_mem _)

/-- The offsets after a write of a word. -/
theorem Memory.mem_writeWord {m : Memory} {a : Nat} {v : Word} {c : Host.Cell} (h : c ∈ m.writeWord a v) :
    (a ≤ c.1 ∧ c.1 < a + 4) ∨ c ∈ m := by
  rcases mem_writeByte h with rfl | h
  · exact .inl ⟨by simp, by simp⟩
  rcases mem_writeByte h with rfl | h
  · exact .inl ⟨by simp, by simp⟩
  rcases mem_writeByte h with rfl | h
  · exact .inl ⟨by simp, by simp⟩
  rcases mem_writeByte h with rfl | h
  · exact .inl ⟨by simp, by simp⟩
  · exact .inr h

/-- A read of one byte after a write of a word. -/
theorem Memory.readByte_writeWord (m : Memory) (a b : Nat) (v : Word) :
    (m.writeWord a v).readByte b =
      if b = a + 3 then some (laneOf v 3) else if b = a + 2 then some (laneOf v 2)
      else if b = a + 1 then some (laneOf v 1) else if b = a then some (laneOf v 0) else m.readByte b := by
  simp only [Memory.writeWord, Memory.readByte_writeByte]

/-- The four lanes of a word make the word. -/
theorem wordOfBytes_lanes (v : Word) : wordOfBytes (laneOf v 0) (laneOf v 1) (laneOf v 2) (laneOf v 3) = v := by
  apply BitVec.eq_of_getLsbD_eq
  intro i hi
  simp only [wordOfBytes, laneOf, BitVec.getLsbD_append, BitVec.getLsbD_extractLsb']
  split
  · simp_all
  · split
    · rename_i h1 h2
      simp only [show i - 8 < 8 by omega, decide_true, Bool.true_and]
      congr 1; omega
    · split
      · rename_i h1 h2 h3
        simp only [show i - 8 - 8 < 8 by omega, decide_true, Bool.true_and]
        congr 1; omega
      · rename_i h1 h2 h3
        simp only [show i - 8 - 8 - 8 < 8 by omega, decide_true, Bool.true_and]
        congr 1; omega

theorem Memory.readWord_writeWord_same (m : Memory) (a : Nat) (v : Word) : (m.writeWord a v).readWord a = some v := by
  simp [Memory.readWord, Memory.readByte_writeWord, wordOfBytes_lanes]

/-- A write of a word leaves every word that does not overlap it. -/
theorem Memory.readWord_writeWord_other (m : Memory) {a b : Nat} (v : Word) (h : b + 4 ≤ a ∨ a + 4 ≤ b) :
    (m.writeWord a v).readWord b = m.readWord b := by
  have e : ∀ k, k < 4 → (m.writeWord a v).readByte (b + k) = m.readByte (b + k) := fun k hk => by
    rw [Memory.readByte_writeWord, if_neg (by omega), if_neg (by omega), if_neg (by omega), if_neg (by omega)]
  have e0 := e 0 (by omega)
  simp only [Nat.add_zero] at e0
  simp only [Memory.readWord, e0, e 1 (by omega), e 2 (by omega), e 3 (by omega)]

end Sys2Proof.Machine
end

