-- ==== Sys2Proof/Laws/State.lean ====
section
/-!
SUPPORT. What each named update of the state writes and what it leaves, one lemma per field, so that no proof unfolds
a record update.
-/

namespace Sys2Proof.Machine

@[simp] theorem State.seterr_mt (c : ErrCode) (s : State) : (s.seterr c).mt = s.mt := rfl
@[simp] theorem State.seterr_cursor (c : ErrCode) (s : State) : (s.seterr c).cursor = s.cursor := rfl
@[simp] theorem State.seterr_origSeed (c : ErrCode) (s : State) : (s.seterr c).origSeed = s.origSeed := rfl
@[simp] theorem State.seterr_seeded (c : ErrCode) (s : State) : (s.seterr c).seeded = s.seeded := rfl
@[simp] theorem State.seterr_src (c : ErrCode) (s : State) : (s.seterr c).src = s.src := rfl
@[simp] theorem State.seterr_busy (c : ErrCode) (s : State) : (s.seterr c).busy = s.busy := rfl
@[simp] theorem State.seterr_pending (c : ErrCode) (s : State) : (s.seterr c).pending = s.pending := rfl
@[simp] theorem State.seterr_err (c : ErrCode) (s : State) :
    (s.seterr c).err = if s.err = .noError then c else s.err := rfl
@[simp] theorem State.seterr_out (c : ErrCode) (s : State) : (s.seterr c).out = s.out := rfl
@[simp] theorem State.seterr_twists (c : ErrCode) (s : State) : (s.seterr c).twists = s.twists := rfl
@[simp] theorem State.seterr_seedLo (c : ErrCode) (s : State) : (s.seterr c).seedLo = s.seedLo := rfl
@[simp] theorem State.seterr_seedHi (c : ErrCode) (s : State) : (s.seterr c).seedHi = s.seedHi := rfl
@[simp] theorem State.seterr_keyLen (c : ErrCode) (s : State) : (s.seterr c).keyLen = s.keyLen := rfl
@[simp] theorem State.seterr_key (c : ErrCode) (s : State) : (s.seterr c).key = s.key := rfl
@[simp] theorem State.seterr_prog (c : ErrCode) (s : State) : (s.seterr c).prog = s.prog := rfl
@[simp] theorem State.seterr_pos (c : ErrCode) (s : State) : (s.seterr c).pos = s.pos := rfl
@[simp] theorem State.seterr_r (c : ErrCode) (s : State) : (s.seterr c).r = s.r := rfl
@[simp] theorem State.seterr_trace (c : ErrCode) (s : State) : (s.seterr c).trace = s.trace := rfl
@[simp] theorem State.seterr_sched (c : ErrCode) (s : State) : (s.seterr c).sched = s.sched := rfl
@[simp] theorem State.seterr_draws (c : ErrCode) (s : State) : (s.seterr c).draws = s.draws := rfl
@[simp] theorem State.seterr_config (c : ErrCode) (s : State) : (s.seterr c).config = s.config := rfl

@[simp] theorem State.accept_mt (i : Instr) (s : State) : (s.accept i).mt = s.mt := rfl
@[simp] theorem State.accept_cursor (i : Instr) (s : State) : (s.accept i).cursor = s.cursor := rfl
@[simp] theorem State.accept_origSeed (i : Instr) (s : State) : (s.accept i).origSeed = s.origSeed := rfl
@[simp] theorem State.accept_seeded (i : Instr) (s : State) : (s.accept i).seeded = s.seeded := rfl
@[simp] theorem State.accept_src (i : Instr) (s : State) : (s.accept i).src = s.src := rfl
@[simp] theorem State.accept_busy (i : Instr) (s : State) : (s.accept i).busy = true := rfl
@[simp] theorem State.accept_pending (i : Instr) (s : State) : (s.accept i).pending = some i := rfl
@[simp] theorem State.accept_err (i : Instr) (s : State) : (s.accept i).err = s.err := rfl
@[simp] theorem State.accept_out (i : Instr) (s : State) : (s.accept i).out = s.out := rfl
@[simp] theorem State.accept_twists (i : Instr) (s : State) : (s.accept i).twists = s.twists := rfl
@[simp] theorem State.accept_seedLo (i : Instr) (s : State) : (s.accept i).seedLo = s.seedLo := rfl
@[simp] theorem State.accept_seedHi (i : Instr) (s : State) : (s.accept i).seedHi = s.seedHi := rfl
@[simp] theorem State.accept_keyLen (i : Instr) (s : State) : (s.accept i).keyLen = s.keyLen := rfl
@[simp] theorem State.accept_key (i : Instr) (s : State) : (s.accept i).key = s.key := rfl
@[simp] theorem State.accept_prog (i : Instr) (s : State) : (s.accept i).prog = s.prog := rfl
@[simp] theorem State.accept_pos (i : Instr) (s : State) : (s.accept i).pos = s.pos := rfl
@[simp] theorem State.accept_r (i : Instr) (s : State) : (s.accept i).r = s.r := rfl
@[simp] theorem State.accept_trace (i : Instr) (s : State) : (s.accept i).trace = s.trace := rfl
@[simp] theorem State.accept_sched (i : Instr) (s : State) : (s.accept i).sched = s.sched := rfl
@[simp] theorem State.accept_draws (i : Instr) (s : State) : (s.accept i).draws = s.draws := rfl
@[simp] theorem State.accept_config (i : Instr) (s : State) : (s.accept i).config = s.config := rfl

@[simp] theorem State.complete_mt (s : State) : s.complete.mt = s.mt := rfl
@[simp] theorem State.complete_cursor (s : State) : s.complete.cursor = s.cursor := rfl
@[simp] theorem State.complete_origSeed (s : State) : s.complete.origSeed = s.origSeed := rfl
@[simp] theorem State.complete_seeded (s : State) : s.complete.seeded = s.seeded := rfl
@[simp] theorem State.complete_src (s : State) : s.complete.src = s.src := rfl
@[simp] theorem State.complete_busy (s : State) : s.complete.busy = false := rfl
@[simp] theorem State.complete_pending (s : State) : s.complete.pending = none := rfl
@[simp] theorem State.complete_err (s : State) : s.complete.err = s.err := rfl
@[simp] theorem State.complete_out (s : State) : s.complete.out = s.out := rfl
@[simp] theorem State.complete_twists (s : State) : s.complete.twists = s.twists := rfl
@[simp] theorem State.complete_seedLo (s : State) : s.complete.seedLo = s.seedLo := rfl
@[simp] theorem State.complete_seedHi (s : State) : s.complete.seedHi = s.seedHi := rfl
@[simp] theorem State.complete_keyLen (s : State) : s.complete.keyLen = s.keyLen := rfl
@[simp] theorem State.complete_key (s : State) : s.complete.key = s.key := rfl
@[simp] theorem State.complete_prog (s : State) : s.complete.prog = s.prog := rfl
@[simp] theorem State.complete_pos (s : State) : s.complete.pos = s.pos := rfl
@[simp] theorem State.complete_r (s : State) : s.complete.r = s.r := rfl
@[simp] theorem State.complete_trace (s : State) : s.complete.trace = s.trace := rfl
@[simp] theorem State.complete_sched (s : State) : s.complete.sched = s.sched := rfl
@[simp] theorem State.complete_draws (s : State) : s.complete.draws = s.draws := rfl
@[simp] theorem State.complete_config (s : State) : s.complete.config = s.config := rfl

@[simp] theorem State.loadSeeded_mt (A : List Word) (o : DWord) (b : Bool) (s : State) :
    (s.loadSeeded A o b).mt = A.map some := rfl
@[simp] theorem State.loadSeeded_cursor (A : List Word) (o : DWord) (b : Bool) (s : State) :
    (s.loadSeeded A o b).cursor = 624 := rfl
@[simp] theorem State.loadSeeded_origSeed (A : List Word) (o : DWord) (b : Bool) (s : State) :
    (s.loadSeeded A o b).origSeed = o := rfl
@[simp] theorem State.loadSeeded_seeded (A : List Word) (o : DWord) (b : Bool) (s : State) :
    (s.loadSeeded A o b).seeded = true := rfl
@[simp] theorem State.loadSeeded_src (A : List Word) (o : DWord) (b : Bool) (s : State) :
    (s.loadSeeded A o b).src = b := rfl
@[simp] theorem State.loadSeeded_busy (A : List Word) (o : DWord) (b : Bool) (s : State) :
    (s.loadSeeded A o b).busy = s.busy := rfl
@[simp] theorem State.loadSeeded_pending (A : List Word) (o : DWord) (b : Bool) (s : State) :
    (s.loadSeeded A o b).pending = s.pending := rfl
@[simp] theorem State.loadSeeded_err (A : List Word) (o : DWord) (b : Bool) (s : State) :
    (s.loadSeeded A o b).err = s.err := rfl
@[simp] theorem State.loadSeeded_out (A : List Word) (o : DWord) (b : Bool) (s : State) :
    (s.loadSeeded A o b).out = 0 := rfl
@[simp] theorem State.loadSeeded_twists (A : List Word) (o : DWord) (b : Bool) (s : State) :
    (s.loadSeeded A o b).twists = 0 := rfl
@[simp] theorem State.loadSeeded_seedLo (A : List Word) (o : DWord) (b : Bool) (s : State) :
    (s.loadSeeded A o b).seedLo = s.seedLo := rfl
@[simp] theorem State.loadSeeded_seedHi (A : List Word) (o : DWord) (b : Bool) (s : State) :
    (s.loadSeeded A o b).seedHi = s.seedHi := rfl
@[simp] theorem State.loadSeeded_keyLen (A : List Word) (o : DWord) (b : Bool) (s : State) :
    (s.loadSeeded A o b).keyLen = s.keyLen := rfl
@[simp] theorem State.loadSeeded_key (A : List Word) (o : DWord) (b : Bool) (s : State) :
    (s.loadSeeded A o b).key = s.key := rfl
@[simp] theorem State.loadSeeded_prog (A : List Word) (o : DWord) (b : Bool) (s : State) :
    (s.loadSeeded A o b).prog = s.prog := rfl
@[simp] theorem State.loadSeeded_pos (A : List Word) (o : DWord) (b : Bool) (s : State) :
    (s.loadSeeded A o b).pos = s.pos := rfl
@[simp] theorem State.loadSeeded_r (A : List Word) (o : DWord) (b : Bool) (s : State) :
    (s.loadSeeded A o b).r = s.r := rfl
@[simp] theorem State.loadSeeded_trace (A : List Word) (o : DWord) (b : Bool) (s : State) :
    (s.loadSeeded A o b).trace = s.trace := rfl
@[simp] theorem State.loadSeeded_sched (A : List Word) (o : DWord) (b : Bool) (s : State) :
    (s.loadSeeded A o b).sched = s.sched := rfl
@[simp] theorem State.loadSeeded_draws (A : List Word) (o : DWord) (b : Bool) (s : State) :
    (s.loadSeeded A o b).draws = s.draws := rfl
@[simp] theorem State.loadSeeded_config (A : List Word) (o : DWord) (b : Bool) (s : State) :
    (s.loadSeeded A o b).config = s.config := rfl

@[simp] theorem State.afterTwist_mt (A : List Word) (s : State) : (s.afterTwist A).mt = A.map some := rfl
@[simp] theorem State.afterTwist_cursor (A : List Word) (s : State) : (s.afterTwist A).cursor = 0 := rfl
@[simp] theorem State.afterTwist_origSeed (A : List Word) (s : State) : (s.afterTwist A).origSeed = s.origSeed := rfl
@[simp] theorem State.afterTwist_seeded (A : List Word) (s : State) : (s.afterTwist A).seeded = s.seeded := rfl
@[simp] theorem State.afterTwist_src (A : List Word) (s : State) : (s.afterTwist A).src = s.src := rfl
@[simp] theorem State.afterTwist_busy (A : List Word) (s : State) : (s.afterTwist A).busy = s.busy := rfl
@[simp] theorem State.afterTwist_pending (A : List Word) (s : State) : (s.afterTwist A).pending = s.pending := rfl
@[simp] theorem State.afterTwist_err (A : List Word) (s : State) : (s.afterTwist A).err = s.err := rfl
@[simp] theorem State.afterTwist_out (A : List Word) (s : State) : (s.afterTwist A).out = s.out := rfl
@[simp] theorem State.afterTwist_twists (A : List Word) (s : State) : (s.afterTwist A).twists = s.twists + 1 := rfl
@[simp] theorem State.afterTwist_seedLo (A : List Word) (s : State) : (s.afterTwist A).seedLo = s.seedLo := rfl
@[simp] theorem State.afterTwist_seedHi (A : List Word) (s : State) : (s.afterTwist A).seedHi = s.seedHi := rfl
@[simp] theorem State.afterTwist_keyLen (A : List Word) (s : State) : (s.afterTwist A).keyLen = s.keyLen := rfl
@[simp] theorem State.afterTwist_key (A : List Word) (s : State) : (s.afterTwist A).key = s.key := rfl
@[simp] theorem State.afterTwist_prog (A : List Word) (s : State) : (s.afterTwist A).prog = s.prog := rfl
@[simp] theorem State.afterTwist_pos (A : List Word) (s : State) : (s.afterTwist A).pos = s.pos := rfl
@[simp] theorem State.afterTwist_r (A : List Word) (s : State) : (s.afterTwist A).r = s.r := rfl
@[simp] theorem State.afterTwist_trace (A : List Word) (s : State) : (s.afterTwist A).trace = s.trace := rfl
@[simp] theorem State.afterTwist_sched (A : List Word) (s : State) : (s.afterTwist A).sched = s.sched := rfl
@[simp] theorem State.afterTwist_draws (A : List Word) (s : State) : (s.afterTwist A).draws = s.draws := rfl
@[simp] theorem State.afterTwist_config (A : List Word) (s : State) : (s.afterTwist A).config = s.config := rfl

@[simp] theorem State.extracted_mt (w : Word) (s : State) : (s.extracted w).mt = s.mt := rfl
@[simp] theorem State.extracted_cursor (w : Word) (s : State) : (s.extracted w).cursor = s.cursor + 1 := rfl
@[simp] theorem State.extracted_origSeed (w : Word) (s : State) : (s.extracted w).origSeed = s.origSeed := rfl
@[simp] theorem State.extracted_seeded (w : Word) (s : State) : (s.extracted w).seeded = s.seeded := rfl
@[simp] theorem State.extracted_src (w : Word) (s : State) : (s.extracted w).src = s.src := rfl
@[simp] theorem State.extracted_busy (w : Word) (s : State) : (s.extracted w).busy = s.busy := rfl
@[simp] theorem State.extracted_pending (w : Word) (s : State) : (s.extracted w).pending = s.pending := rfl
@[simp] theorem State.extracted_err (w : Word) (s : State) : (s.extracted w).err = s.err := rfl
@[simp] theorem State.extracted_out (w : Word) (s : State) : (s.extracted w).out = w := rfl
@[simp] theorem State.extracted_twists (w : Word) (s : State) : (s.extracted w).twists = s.twists := rfl
@[simp] theorem State.extracted_seedLo (w : Word) (s : State) : (s.extracted w).seedLo = s.seedLo := rfl
@[simp] theorem State.extracted_seedHi (w : Word) (s : State) : (s.extracted w).seedHi = s.seedHi := rfl
@[simp] theorem State.extracted_keyLen (w : Word) (s : State) : (s.extracted w).keyLen = s.keyLen := rfl
@[simp] theorem State.extracted_key (w : Word) (s : State) : (s.extracted w).key = s.key := rfl
@[simp] theorem State.extracted_prog (w : Word) (s : State) : (s.extracted w).prog = s.prog := rfl
@[simp] theorem State.extracted_pos (w : Word) (s : State) : (s.extracted w).pos = s.pos := rfl
@[simp] theorem State.extracted_r (w : Word) (s : State) : (s.extracted w).r = s.r := rfl
@[simp] theorem State.extracted_trace (w : Word) (s : State) : (s.extracted w).trace = s.trace := rfl
@[simp] theorem State.extracted_sched (w : Word) (s : State) : (s.extracted w).sched = s.sched := rfl
@[simp] theorem State.extracted_draws (w : Word) (s : State) : (s.extracted w).draws = s.draws := rfl
@[simp] theorem State.extracted_config (w : Word) (s : State) : (s.extracted w).config = s.config := rfl

@[simp] theorem State.clearErr_mt (s : State) : s.clearErr.mt = s.mt := rfl
@[simp] theorem State.clearErr_cursor (s : State) : s.clearErr.cursor = s.cursor := rfl
@[simp] theorem State.clearErr_origSeed (s : State) : s.clearErr.origSeed = s.origSeed := rfl
@[simp] theorem State.clearErr_seeded (s : State) : s.clearErr.seeded = s.seeded := rfl
@[simp] theorem State.clearErr_src (s : State) : s.clearErr.src = s.src := rfl
@[simp] theorem State.clearErr_busy (s : State) : s.clearErr.busy = s.busy := rfl
@[simp] theorem State.clearErr_pending (s : State) : s.clearErr.pending = s.pending := rfl
@[simp] theorem State.clearErr_err (s : State) : s.clearErr.err = .noError := rfl
@[simp] theorem State.clearErr_out (s : State) : s.clearErr.out = s.out := rfl
@[simp] theorem State.clearErr_twists (s : State) : s.clearErr.twists = s.twists := rfl
@[simp] theorem State.clearErr_seedLo (s : State) : s.clearErr.seedLo = s.seedLo := rfl
@[simp] theorem State.clearErr_seedHi (s : State) : s.clearErr.seedHi = s.seedHi := rfl
@[simp] theorem State.clearErr_keyLen (s : State) : s.clearErr.keyLen = s.keyLen := rfl
@[simp] theorem State.clearErr_key (s : State) : s.clearErr.key = s.key := rfl
@[simp] theorem State.clearErr_prog (s : State) : s.clearErr.prog = s.prog := rfl
@[simp] theorem State.clearErr_pos (s : State) : s.clearErr.pos = s.pos := rfl
@[simp] theorem State.clearErr_r (s : State) : s.clearErr.r = s.r := rfl
@[simp] theorem State.clearErr_trace (s : State) : s.clearErr.trace = s.trace := rfl
@[simp] theorem State.clearErr_sched (s : State) : s.clearErr.sched = s.sched := rfl
@[simp] theorem State.clearErr_draws (s : State) : s.clearErr.draws = s.draws := rfl
@[simp] theorem State.clearErr_config (s : State) : s.clearErr.config = s.config := rfl

@[simp] theorem State.setSeedLo_mt (v : Word) (s : State) : (s.setSeedLo v).mt = s.mt := rfl
@[simp] theorem State.setSeedLo_cursor (v : Word) (s : State) : (s.setSeedLo v).cursor = s.cursor := rfl
@[simp] theorem State.setSeedLo_origSeed (v : Word) (s : State) : (s.setSeedLo v).origSeed = s.origSeed := rfl
@[simp] theorem State.setSeedLo_seeded (v : Word) (s : State) : (s.setSeedLo v).seeded = s.seeded := rfl
@[simp] theorem State.setSeedLo_src (v : Word) (s : State) : (s.setSeedLo v).src = s.src := rfl
@[simp] theorem State.setSeedLo_busy (v : Word) (s : State) : (s.setSeedLo v).busy = s.busy := rfl
@[simp] theorem State.setSeedLo_pending (v : Word) (s : State) : (s.setSeedLo v).pending = s.pending := rfl
@[simp] theorem State.setSeedLo_err (v : Word) (s : State) : (s.setSeedLo v).err = s.err := rfl
@[simp] theorem State.setSeedLo_out (v : Word) (s : State) : (s.setSeedLo v).out = s.out := rfl
@[simp] theorem State.setSeedLo_twists (v : Word) (s : State) : (s.setSeedLo v).twists = s.twists := rfl
@[simp] theorem State.setSeedLo_seedLo (v : Word) (s : State) : (s.setSeedLo v).seedLo = v := rfl
@[simp] theorem State.setSeedLo_seedHi (v : Word) (s : State) : (s.setSeedLo v).seedHi = s.seedHi := rfl
@[simp] theorem State.setSeedLo_keyLen (v : Word) (s : State) : (s.setSeedLo v).keyLen = s.keyLen := rfl
@[simp] theorem State.setSeedLo_key (v : Word) (s : State) : (s.setSeedLo v).key = s.key := rfl
@[simp] theorem State.setSeedLo_prog (v : Word) (s : State) : (s.setSeedLo v).prog = s.prog := rfl
@[simp] theorem State.setSeedLo_pos (v : Word) (s : State) : (s.setSeedLo v).pos = s.pos := rfl
@[simp] theorem State.setSeedLo_r (v : Word) (s : State) : (s.setSeedLo v).r = s.r := rfl
@[simp] theorem State.setSeedLo_trace (v : Word) (s : State) : (s.setSeedLo v).trace = s.trace := rfl
@[simp] theorem State.setSeedLo_sched (v : Word) (s : State) : (s.setSeedLo v).sched = s.sched := rfl
@[simp] theorem State.setSeedLo_draws (v : Word) (s : State) : (s.setSeedLo v).draws = s.draws := rfl
@[simp] theorem State.setSeedLo_config (v : Word) (s : State) : (s.setSeedLo v).config = s.config := rfl

@[simp] theorem State.setSeedHi_mt (v : Word) (s : State) : (s.setSeedHi v).mt = s.mt := rfl
@[simp] theorem State.setSeedHi_cursor (v : Word) (s : State) : (s.setSeedHi v).cursor = s.cursor := rfl
@[simp] theorem State.setSeedHi_origSeed (v : Word) (s : State) : (s.setSeedHi v).origSeed = s.origSeed := rfl
@[simp] theorem State.setSeedHi_seeded (v : Word) (s : State) : (s.setSeedHi v).seeded = s.seeded := rfl
@[simp] theorem State.setSeedHi_src (v : Word) (s : State) : (s.setSeedHi v).src = s.src := rfl
@[simp] theorem State.setSeedHi_busy (v : Word) (s : State) : (s.setSeedHi v).busy = s.busy := rfl
@[simp] theorem State.setSeedHi_pending (v : Word) (s : State) : (s.setSeedHi v).pending = s.pending := rfl
@[simp] theorem State.setSeedHi_err (v : Word) (s : State) : (s.setSeedHi v).err = s.err := rfl
@[simp] theorem State.setSeedHi_out (v : Word) (s : State) : (s.setSeedHi v).out = s.out := rfl
@[simp] theorem State.setSeedHi_twists (v : Word) (s : State) : (s.setSeedHi v).twists = s.twists := rfl
@[simp] theorem State.setSeedHi_seedLo (v : Word) (s : State) : (s.setSeedHi v).seedLo = s.seedLo := rfl
@[simp] theorem State.setSeedHi_seedHi (v : Word) (s : State) : (s.setSeedHi v).seedHi = v := rfl
@[simp] theorem State.setSeedHi_keyLen (v : Word) (s : State) : (s.setSeedHi v).keyLen = s.keyLen := rfl
@[simp] theorem State.setSeedHi_key (v : Word) (s : State) : (s.setSeedHi v).key = s.key := rfl
@[simp] theorem State.setSeedHi_prog (v : Word) (s : State) : (s.setSeedHi v).prog = s.prog := rfl
@[simp] theorem State.setSeedHi_pos (v : Word) (s : State) : (s.setSeedHi v).pos = s.pos := rfl
@[simp] theorem State.setSeedHi_r (v : Word) (s : State) : (s.setSeedHi v).r = s.r := rfl
@[simp] theorem State.setSeedHi_trace (v : Word) (s : State) : (s.setSeedHi v).trace = s.trace := rfl
@[simp] theorem State.setSeedHi_sched (v : Word) (s : State) : (s.setSeedHi v).sched = s.sched := rfl
@[simp] theorem State.setSeedHi_draws (v : Word) (s : State) : (s.setSeedHi v).draws = s.draws := rfl
@[simp] theorem State.setSeedHi_config (v : Word) (s : State) : (s.setSeedHi v).config = s.config := rfl

@[simp] theorem State.setKeyLen_mt (v : Word) (s : State) : (s.setKeyLen v).mt = s.mt := rfl
@[simp] theorem State.setKeyLen_cursor (v : Word) (s : State) : (s.setKeyLen v).cursor = s.cursor := rfl
@[simp] theorem State.setKeyLen_origSeed (v : Word) (s : State) : (s.setKeyLen v).origSeed = s.origSeed := rfl
@[simp] theorem State.setKeyLen_seeded (v : Word) (s : State) : (s.setKeyLen v).seeded = s.seeded := rfl
@[simp] theorem State.setKeyLen_src (v : Word) (s : State) : (s.setKeyLen v).src = s.src := rfl
@[simp] theorem State.setKeyLen_busy (v : Word) (s : State) : (s.setKeyLen v).busy = s.busy := rfl
@[simp] theorem State.setKeyLen_pending (v : Word) (s : State) : (s.setKeyLen v).pending = s.pending := rfl
@[simp] theorem State.setKeyLen_err (v : Word) (s : State) : (s.setKeyLen v).err = s.err := rfl
@[simp] theorem State.setKeyLen_out (v : Word) (s : State) : (s.setKeyLen v).out = s.out := rfl
@[simp] theorem State.setKeyLen_twists (v : Word) (s : State) : (s.setKeyLen v).twists = s.twists := rfl
@[simp] theorem State.setKeyLen_seedLo (v : Word) (s : State) : (s.setKeyLen v).seedLo = s.seedLo := rfl
@[simp] theorem State.setKeyLen_seedHi (v : Word) (s : State) : (s.setKeyLen v).seedHi = s.seedHi := rfl
@[simp] theorem State.setKeyLen_keyLen (v : Word) (s : State) : (s.setKeyLen v).keyLen = v := rfl
@[simp] theorem State.setKeyLen_key (v : Word) (s : State) : (s.setKeyLen v).key = s.key := rfl
@[simp] theorem State.setKeyLen_prog (v : Word) (s : State) : (s.setKeyLen v).prog = s.prog := rfl
@[simp] theorem State.setKeyLen_pos (v : Word) (s : State) : (s.setKeyLen v).pos = s.pos := rfl
@[simp] theorem State.setKeyLen_r (v : Word) (s : State) : (s.setKeyLen v).r = s.r := rfl
@[simp] theorem State.setKeyLen_trace (v : Word) (s : State) : (s.setKeyLen v).trace = s.trace := rfl
@[simp] theorem State.setKeyLen_sched (v : Word) (s : State) : (s.setKeyLen v).sched = s.sched := rfl
@[simp] theorem State.setKeyLen_draws (v : Word) (s : State) : (s.setKeyLen v).draws = s.draws := rfl
@[simp] theorem State.setKeyLen_config (v : Word) (s : State) : (s.setKeyLen v).config = s.config := rfl

@[simp] theorem State.setKey_mt (i : Nat) (v : Word) (s : State) : (s.setKey i v).mt = s.mt := rfl
@[simp] theorem State.setKey_cursor (i : Nat) (v : Word) (s : State) : (s.setKey i v).cursor = s.cursor := rfl
@[simp] theorem State.setKey_origSeed (i : Nat) (v : Word) (s : State) : (s.setKey i v).origSeed = s.origSeed := rfl
@[simp] theorem State.setKey_seeded (i : Nat) (v : Word) (s : State) : (s.setKey i v).seeded = s.seeded := rfl
@[simp] theorem State.setKey_src (i : Nat) (v : Word) (s : State) : (s.setKey i v).src = s.src := rfl
@[simp] theorem State.setKey_busy (i : Nat) (v : Word) (s : State) : (s.setKey i v).busy = s.busy := rfl
@[simp] theorem State.setKey_pending (i : Nat) (v : Word) (s : State) : (s.setKey i v).pending = s.pending := rfl
@[simp] theorem State.setKey_err (i : Nat) (v : Word) (s : State) : (s.setKey i v).err = s.err := rfl
@[simp] theorem State.setKey_out (i : Nat) (v : Word) (s : State) : (s.setKey i v).out = s.out := rfl
@[simp] theorem State.setKey_twists (i : Nat) (v : Word) (s : State) : (s.setKey i v).twists = s.twists := rfl
@[simp] theorem State.setKey_seedLo (i : Nat) (v : Word) (s : State) : (s.setKey i v).seedLo = s.seedLo := rfl
@[simp] theorem State.setKey_seedHi (i : Nat) (v : Word) (s : State) : (s.setKey i v).seedHi = s.seedHi := rfl
@[simp] theorem State.setKey_keyLen (i : Nat) (v : Word) (s : State) : (s.setKey i v).keyLen = s.keyLen := rfl
@[simp] theorem State.setKey_key (i : Nat) (v : Word) (s : State) :
    (s.setKey i v).key = s.key.writeWord (keyOffset i) v := rfl
@[simp] theorem State.setKey_prog (i : Nat) (v : Word) (s : State) : (s.setKey i v).prog = s.prog := rfl
@[simp] theorem State.setKey_pos (i : Nat) (v : Word) (s : State) : (s.setKey i v).pos = s.pos := rfl
@[simp] theorem State.setKey_r (i : Nat) (v : Word) (s : State) : (s.setKey i v).r = s.r := rfl
@[simp] theorem State.setKey_trace (i : Nat) (v : Word) (s : State) : (s.setKey i v).trace = s.trace := rfl
@[simp] theorem State.setKey_sched (i : Nat) (v : Word) (s : State) : (s.setKey i v).sched = s.sched := rfl
@[simp] theorem State.setKey_draws (i : Nat) (v : Word) (s : State) : (s.setKey i v).draws = s.draws := rfl
@[simp] theorem State.setKey_config (i : Nat) (v : Word) (s : State) : (s.setKey i v).config = s.config := rfl

@[simp] theorem State.tick_mt (s : State) : s.tick.mt = s.mt := rfl
@[simp] theorem State.tick_cursor (s : State) : s.tick.cursor = s.cursor := rfl
@[simp] theorem State.tick_origSeed (s : State) : s.tick.origSeed = s.origSeed := rfl
@[simp] theorem State.tick_seeded (s : State) : s.tick.seeded = s.seeded := rfl
@[simp] theorem State.tick_src (s : State) : s.tick.src = s.src := rfl
@[simp] theorem State.tick_busy (s : State) : s.tick.busy = s.busy := rfl
@[simp] theorem State.tick_pending (s : State) : s.tick.pending = s.pending := rfl
@[simp] theorem State.tick_err (s : State) : s.tick.err = s.err := rfl
@[simp] theorem State.tick_out (s : State) : s.tick.out = s.out := rfl
@[simp] theorem State.tick_twists (s : State) : s.tick.twists = s.twists := rfl
@[simp] theorem State.tick_seedLo (s : State) : s.tick.seedLo = s.seedLo := rfl
@[simp] theorem State.tick_seedHi (s : State) : s.tick.seedHi = s.seedHi := rfl
@[simp] theorem State.tick_keyLen (s : State) : s.tick.keyLen = s.keyLen := rfl
@[simp] theorem State.tick_key (s : State) : s.tick.key = s.key := rfl
@[simp] theorem State.tick_prog (s : State) : s.tick.prog = s.prog := rfl
@[simp] theorem State.tick_pos (s : State) : s.tick.pos = s.pos := rfl
@[simp] theorem State.tick_r (s : State) : s.tick.r = s.r := rfl
@[simp] theorem State.tick_trace (s : State) : s.tick.trace = s.trace := rfl
@[simp] theorem State.tick_sched (s : State) : s.tick.sched = s.sched := rfl
@[simp] theorem State.tick_draws (s : State) : s.tick.draws = s.draws + 1 := rfl
@[simp] theorem State.tick_config (s : State) : s.tick.config = s.config := rfl

@[simp] theorem State.wrote_mt (o : Nat) (v : Word) (s : State) : (s.wrote o v).mt = s.mt := rfl
@[simp] theorem State.wrote_cursor (o : Nat) (v : Word) (s : State) : (s.wrote o v).cursor = s.cursor := rfl
@[simp] theorem State.wrote_origSeed (o : Nat) (v : Word) (s : State) : (s.wrote o v).origSeed = s.origSeed := rfl
@[simp] theorem State.wrote_seeded (o : Nat) (v : Word) (s : State) : (s.wrote o v).seeded = s.seeded := rfl
@[simp] theorem State.wrote_src (o : Nat) (v : Word) (s : State) : (s.wrote o v).src = s.src := rfl
@[simp] theorem State.wrote_busy (o : Nat) (v : Word) (s : State) : (s.wrote o v).busy = s.busy := rfl
@[simp] theorem State.wrote_pending (o : Nat) (v : Word) (s : State) : (s.wrote o v).pending = s.pending := rfl
@[simp] theorem State.wrote_err (o : Nat) (v : Word) (s : State) : (s.wrote o v).err = s.err := rfl
@[simp] theorem State.wrote_out (o : Nat) (v : Word) (s : State) : (s.wrote o v).out = s.out := rfl
@[simp] theorem State.wrote_twists (o : Nat) (v : Word) (s : State) : (s.wrote o v).twists = s.twists := rfl
@[simp] theorem State.wrote_seedLo (o : Nat) (v : Word) (s : State) : (s.wrote o v).seedLo = s.seedLo := rfl
@[simp] theorem State.wrote_seedHi (o : Nat) (v : Word) (s : State) : (s.wrote o v).seedHi = s.seedHi := rfl
@[simp] theorem State.wrote_keyLen (o : Nat) (v : Word) (s : State) : (s.wrote o v).keyLen = s.keyLen := rfl
@[simp] theorem State.wrote_key (o : Nat) (v : Word) (s : State) : (s.wrote o v).key = s.key := rfl
@[simp] theorem State.wrote_prog (o : Nat) (v : Word) (s : State) : (s.wrote o v).prog = s.prog := rfl
@[simp] theorem State.wrote_pos (o : Nat) (v : Word) (s : State) : (s.wrote o v).pos = s.pos + 1 := rfl
@[simp] theorem State.wrote_r (o : Nat) (v : Word) (s : State) : (s.wrote o v).r = s.r := rfl
@[simp] theorem State.wrote_trace (o : Nat) (v : Word) (s : State) :
    (s.wrote o v).trace = s.trace ++ [.write o v] := rfl
@[simp] theorem State.wrote_sched (o : Nat) (v : Word) (s : State) : (s.wrote o v).sched = s.sched := rfl
@[simp] theorem State.wrote_draws (o : Nat) (v : Word) (s : State) : (s.wrote o v).draws = s.draws := rfl
@[simp] theorem State.wrote_config (o : Nat) (v : Word) (s : State) : (s.wrote o v).config = s.config := rfl

@[simp] theorem State.didRead_mt (o : Nat) (v : Word) (s : State) : (s.didRead o v).mt = s.mt := rfl
@[simp] theorem State.didRead_cursor (o : Nat) (v : Word) (s : State) : (s.didRead o v).cursor = s.cursor := rfl
@[simp] theorem State.didRead_origSeed (o : Nat) (v : Word) (s : State) : (s.didRead o v).origSeed = s.origSeed := rfl
@[simp] theorem State.didRead_seeded (o : Nat) (v : Word) (s : State) : (s.didRead o v).seeded = s.seeded := rfl
@[simp] theorem State.didRead_src (o : Nat) (v : Word) (s : State) : (s.didRead o v).src = s.src := rfl
@[simp] theorem State.didRead_busy (o : Nat) (v : Word) (s : State) : (s.didRead o v).busy = s.busy := rfl
@[simp] theorem State.didRead_pending (o : Nat) (v : Word) (s : State) : (s.didRead o v).pending = s.pending := rfl
@[simp] theorem State.didRead_err (o : Nat) (v : Word) (s : State) : (s.didRead o v).err = s.err := rfl
@[simp] theorem State.didRead_out (o : Nat) (v : Word) (s : State) : (s.didRead o v).out = s.out := rfl
@[simp] theorem State.didRead_twists (o : Nat) (v : Word) (s : State) : (s.didRead o v).twists = s.twists := rfl
@[simp] theorem State.didRead_seedLo (o : Nat) (v : Word) (s : State) : (s.didRead o v).seedLo = s.seedLo := rfl
@[simp] theorem State.didRead_seedHi (o : Nat) (v : Word) (s : State) : (s.didRead o v).seedHi = s.seedHi := rfl
@[simp] theorem State.didRead_keyLen (o : Nat) (v : Word) (s : State) : (s.didRead o v).keyLen = s.keyLen := rfl
@[simp] theorem State.didRead_key (o : Nat) (v : Word) (s : State) : (s.didRead o v).key = s.key := rfl
@[simp] theorem State.didRead_prog (o : Nat) (v : Word) (s : State) : (s.didRead o v).prog = s.prog := rfl
@[simp] theorem State.didRead_pos (o : Nat) (v : Word) (s : State) : (s.didRead o v).pos = s.pos + 1 := rfl
@[simp] theorem State.didRead_r (o : Nat) (v : Word) (s : State) : (s.didRead o v).r = v := rfl
@[simp] theorem State.didRead_trace (o : Nat) (v : Word) (s : State) :
    (s.didRead o v).trace = s.trace ++ [.read o v] := rfl
@[simp] theorem State.didRead_sched (o : Nat) (v : Word) (s : State) : (s.didRead o v).sched = s.sched := rfl
@[simp] theorem State.didRead_draws (o : Nat) (v : Word) (s : State) : (s.didRead o v).draws = s.draws := rfl
@[simp] theorem State.didRead_config (o : Nat) (v : Word) (s : State) : (s.didRead o v).config = s.config := rfl

@[simp] theorem State.goTo_mt (p : Nat) (s : State) : (s.goTo p).mt = s.mt := rfl
@[simp] theorem State.goTo_cursor (p : Nat) (s : State) : (s.goTo p).cursor = s.cursor := rfl
@[simp] theorem State.goTo_origSeed (p : Nat) (s : State) : (s.goTo p).origSeed = s.origSeed := rfl
@[simp] theorem State.goTo_seeded (p : Nat) (s : State) : (s.goTo p).seeded = s.seeded := rfl
@[simp] theorem State.goTo_src (p : Nat) (s : State) : (s.goTo p).src = s.src := rfl
@[simp] theorem State.goTo_busy (p : Nat) (s : State) : (s.goTo p).busy = s.busy := rfl
@[simp] theorem State.goTo_pending (p : Nat) (s : State) : (s.goTo p).pending = s.pending := rfl
@[simp] theorem State.goTo_err (p : Nat) (s : State) : (s.goTo p).err = s.err := rfl
@[simp] theorem State.goTo_out (p : Nat) (s : State) : (s.goTo p).out = s.out := rfl
@[simp] theorem State.goTo_twists (p : Nat) (s : State) : (s.goTo p).twists = s.twists := rfl
@[simp] theorem State.goTo_seedLo (p : Nat) (s : State) : (s.goTo p).seedLo = s.seedLo := rfl
@[simp] theorem State.goTo_seedHi (p : Nat) (s : State) : (s.goTo p).seedHi = s.seedHi := rfl
@[simp] theorem State.goTo_keyLen (p : Nat) (s : State) : (s.goTo p).keyLen = s.keyLen := rfl
@[simp] theorem State.goTo_key (p : Nat) (s : State) : (s.goTo p).key = s.key := rfl
@[simp] theorem State.goTo_prog (p : Nat) (s : State) : (s.goTo p).prog = s.prog := rfl
@[simp] theorem State.goTo_pos (p : Nat) (s : State) : (s.goTo p).pos = p := rfl
@[simp] theorem State.goTo_r (p : Nat) (s : State) : (s.goTo p).r = s.r := rfl
@[simp] theorem State.goTo_trace (p : Nat) (s : State) : (s.goTo p).trace = s.trace := rfl
@[simp] theorem State.goTo_sched (p : Nat) (s : State) : (s.goTo p).sched = s.sched := rfl
@[simp] theorem State.goTo_draws (p : Nat) (s : State) : (s.goTo p).draws = s.draws := rfl
@[simp] theorem State.goTo_config (p : Nat) (s : State) : (s.goTo p).config = s.config := rfl

@[simp] theorem State.withProgram_mt (p : List Stmt) (s : State) : (s.withProgram p).mt = s.mt := rfl
@[simp] theorem State.withProgram_cursor (p : List Stmt) (s : State) : (s.withProgram p).cursor = s.cursor := rfl
@[simp] theorem State.withProgram_origSeed (p : List Stmt) (s : State) : (s.withProgram p).origSeed = s.origSeed := rfl
@[simp] theorem State.withProgram_seeded (p : List Stmt) (s : State) : (s.withProgram p).seeded = s.seeded := rfl
@[simp] theorem State.withProgram_src (p : List Stmt) (s : State) : (s.withProgram p).src = s.src := rfl
@[simp] theorem State.withProgram_busy (p : List Stmt) (s : State) : (s.withProgram p).busy = s.busy := rfl
@[simp] theorem State.withProgram_pending (p : List Stmt) (s : State) : (s.withProgram p).pending = s.pending := rfl
@[simp] theorem State.withProgram_err (p : List Stmt) (s : State) : (s.withProgram p).err = s.err := rfl
@[simp] theorem State.withProgram_out (p : List Stmt) (s : State) : (s.withProgram p).out = s.out := rfl
@[simp] theorem State.withProgram_twists (p : List Stmt) (s : State) : (s.withProgram p).twists = s.twists := rfl
@[simp] theorem State.withProgram_seedLo (p : List Stmt) (s : State) : (s.withProgram p).seedLo = s.seedLo := rfl
@[simp] theorem State.withProgram_seedHi (p : List Stmt) (s : State) : (s.withProgram p).seedHi = s.seedHi := rfl
@[simp] theorem State.withProgram_keyLen (p : List Stmt) (s : State) : (s.withProgram p).keyLen = s.keyLen := rfl
@[simp] theorem State.withProgram_key (p : List Stmt) (s : State) : (s.withProgram p).key = s.key := rfl
@[simp] theorem State.withProgram_prog (p : List Stmt) (s : State) : (s.withProgram p).prog = p := rfl
@[simp] theorem State.withProgram_pos (p : List Stmt) (s : State) : (s.withProgram p).pos = 0 := rfl
@[simp] theorem State.withProgram_r (p : List Stmt) (s : State) : (s.withProgram p).r = s.r := rfl
@[simp] theorem State.withProgram_trace (p : List Stmt) (s : State) : (s.withProgram p).trace = s.trace := rfl
@[simp] theorem State.withProgram_sched (p : List Stmt) (s : State) : (s.withProgram p).sched = s.sched := rfl
@[simp] theorem State.withProgram_draws (p : List Stmt) (s : State) : (s.withProgram p).draws = s.draws := rfl
@[simp] theorem State.withProgram_config (p : List Stmt) (s : State) : (s.withProgram p).config = s.config := rfl

@[simp] theorem State.withSched_mt (l : List Move) (s : State) : (s.withSched l).mt = s.mt := rfl
@[simp] theorem State.withSched_cursor (l : List Move) (s : State) : (s.withSched l).cursor = s.cursor := rfl
@[simp] theorem State.withSched_origSeed (l : List Move) (s : State) : (s.withSched l).origSeed = s.origSeed := rfl
@[simp] theorem State.withSched_seeded (l : List Move) (s : State) : (s.withSched l).seeded = s.seeded := rfl
@[simp] theorem State.withSched_src (l : List Move) (s : State) : (s.withSched l).src = s.src := rfl
@[simp] theorem State.withSched_busy (l : List Move) (s : State) : (s.withSched l).busy = s.busy := rfl
@[simp] theorem State.withSched_pending (l : List Move) (s : State) : (s.withSched l).pending = s.pending := rfl
@[simp] theorem State.withSched_err (l : List Move) (s : State) : (s.withSched l).err = s.err := rfl
@[simp] theorem State.withSched_out (l : List Move) (s : State) : (s.withSched l).out = s.out := rfl
@[simp] theorem State.withSched_twists (l : List Move) (s : State) : (s.withSched l).twists = s.twists := rfl
@[simp] theorem State.withSched_seedLo (l : List Move) (s : State) : (s.withSched l).seedLo = s.seedLo := rfl
@[simp] theorem State.withSched_seedHi (l : List Move) (s : State) : (s.withSched l).seedHi = s.seedHi := rfl
@[simp] theorem State.withSched_keyLen (l : List Move) (s : State) : (s.withSched l).keyLen = s.keyLen := rfl
@[simp] theorem State.withSched_key (l : List Move) (s : State) : (s.withSched l).key = s.key := rfl
@[simp] theorem State.withSched_prog (l : List Move) (s : State) : (s.withSched l).prog = s.prog := rfl
@[simp] theorem State.withSched_pos (l : List Move) (s : State) : (s.withSched l).pos = s.pos := rfl
@[simp] theorem State.withSched_r (l : List Move) (s : State) : (s.withSched l).r = s.r := rfl
@[simp] theorem State.withSched_trace (l : List Move) (s : State) : (s.withSched l).trace = s.trace := rfl
@[simp] theorem State.withSched_sched (l : List Move) (s : State) : (s.withSched l).sched = l := rfl
@[simp] theorem State.withSched_draws (l : List Move) (s : State) : (s.withSched l).draws = s.draws := rfl
@[simp] theorem State.withSched_config (l : List Move) (s : State) : (s.withSched l).config = s.config := rfl

@[simp] theorem State.hardwareReset_mt (s : State) : s.hardwareReset.mt = blankArray := rfl
@[simp] theorem State.hardwareReset_cursor (s : State) : s.hardwareReset.cursor = 624 := rfl
@[simp] theorem State.hardwareReset_origSeed (s : State) : s.hardwareReset.origSeed = 0 := rfl
@[simp] theorem State.hardwareReset_seeded (s : State) : s.hardwareReset.seeded = false := rfl
@[simp] theorem State.hardwareReset_src (s : State) : s.hardwareReset.src = false := rfl
@[simp] theorem State.hardwareReset_busy (s : State) : s.hardwareReset.busy = false := rfl
@[simp] theorem State.hardwareReset_pending (s : State) : s.hardwareReset.pending = none := rfl
@[simp] theorem State.hardwareReset_err (s : State) : s.hardwareReset.err = .noError := rfl
@[simp] theorem State.hardwareReset_out (s : State) : s.hardwareReset.out = 0 := rfl
@[simp] theorem State.hardwareReset_twists (s : State) : s.hardwareReset.twists = 0 := rfl
@[simp] theorem State.hardwareReset_seedLo (s : State) : s.hardwareReset.seedLo = 0 := rfl
@[simp] theorem State.hardwareReset_seedHi (s : State) : s.hardwareReset.seedHi = 0 := rfl
@[simp] theorem State.hardwareReset_keyLen (s : State) : s.hardwareReset.keyLen = 0 := rfl
@[simp] theorem State.hardwareReset_key (s : State) : s.hardwareReset.key = [] := rfl
@[simp] theorem State.hardwareReset_prog (s : State) : s.hardwareReset.prog = s.prog := rfl
@[simp] theorem State.hardwareReset_pos (s : State) : s.hardwareReset.pos = s.pos := rfl
@[simp] theorem State.hardwareReset_r (s : State) : s.hardwareReset.r = s.r := rfl
@[simp] theorem State.hardwareReset_trace (s : State) : s.hardwareReset.trace = s.trace := rfl
@[simp] theorem State.hardwareReset_sched (s : State) : s.hardwareReset.sched = s.sched := rfl
@[simp] theorem State.hardwareReset_draws (s : State) : s.hardwareReset.draws = s.draws := rfl
@[simp] theorem State.hardwareReset_config (s : State) : s.hardwareReset.config = s.config := rfl

@[simp] theorem State.reset_mt : State.reset.mt = blankArray := rfl
@[simp] theorem State.reset_cursor : State.reset.cursor = 624 := rfl
@[simp] theorem State.reset_origSeed : State.reset.origSeed = 0 := rfl
@[simp] theorem State.reset_seeded : State.reset.seeded = false := rfl
@[simp] theorem State.reset_src : State.reset.src = false := rfl
@[simp] theorem State.reset_busy : State.reset.busy = false := rfl
@[simp] theorem State.reset_pending : State.reset.pending = none := rfl
@[simp] theorem State.reset_err : State.reset.err = .noError := rfl
@[simp] theorem State.reset_out : State.reset.out = 0 := rfl
@[simp] theorem State.reset_twists : State.reset.twists = 0 := rfl
@[simp] theorem State.reset_seedLo : State.reset.seedLo = 0 := rfl
@[simp] theorem State.reset_seedHi : State.reset.seedHi = 0 := rfl
@[simp] theorem State.reset_keyLen : State.reset.keyLen = 0 := rfl
@[simp] theorem State.reset_key : State.reset.key = [] := rfl
@[simp] theorem State.reset_prog : State.reset.prog = [] := rfl
@[simp] theorem State.reset_pos : State.reset.pos = 0 := rfl
@[simp] theorem State.reset_r : State.reset.r = 0 := rfl
@[simp] theorem State.reset_trace : State.reset.trace = [] := rfl
@[simp] theorem State.reset_sched : State.reset.sched = [] := rfl
@[simp] theorem State.reset_draws : State.reset.draws = 0 := rfl
@[simp] theorem State.reset_config : State.reset.config = hw := rfl

end Sys2Proof.Machine
end

