-- ==== Sys2Proof/Laws/Ops.lean ====
section
/-!
SUPPORT. What each shared operation can do, said once: chaining, operands, and the meanings of the four commands.
-/

namespace Sys2Proof.Machine

@[simp] theorem andThen_next {α β : Type} (a : α) (f : α → Result β) : andThen (.next a) f = f a := rfl

@[simp] theorem andThen_fault {α β : Type} (e : Fault) (f : α → Result β) : andThen (.fault e) f = .fault e := rfl

@[simp] theorem andThen_refused {α β : Type} (e : Refusal) (f : α → Result β) : andThen (.refused e) f = .refused e := rfl

/-- A chain answers a next state exactly when both parts do. -/
theorem andThen_eq_next {α β : Type} {o : Result α} {f : α → Result β} {b : β} :
    andThen o f = .next b ↔ ∃ a, o = .next a ∧ f a = .next b := by
  cases o <;> simp

/-- A chain faults where its first part does, or its second after a next first one. -/
theorem andThen_eq_fault {α β : Type} {o : Result α} {f : α → Result β} {e : Fault} :
    andThen o f = .fault e ↔ o = .fault e ∨ ∃ a, o = .next a ∧ f a = .fault e := by
  cases o <;> simp

theorem keyLenOk_iff (c : Config) (L : Word) : keyLenOk c L = true ↔ 1 ≤ L.toNat ∧ L.toNat ≤ c.keyMax := by
  simp [keyLenOk]

@[simp] theorem hw_keyMax : hw.keyMax = 624 := rfl

@[simp] theorem hw_intSeedAlg : hw.intSeedAlg = .genrand := rfl

@[simp] theorem wf_hw : hw.wf = true := rfl

theorem Config.wf_iff (c : Config) : c.wf = true ↔ 1 ≤ c.keyMax ∧ c.keyMax ≤ 1024 := by
  simp [Config.wf]

@[simp] theorem lowWord_append (hi lo : Word) : lowWord (hi ++ lo) = lo := by
  apply BitVec.eq_of_getLsbD_eq
  intro i h
  have e := BitVec.getLsbD_append (x := hi) (y := lo) (i := i)
  simp only [lowWord, BitVec.getLsbD_extractLsb', h, decide_true, Bool.true_and, Nat.zero_add, if_true] at e ⊢
  exact e

@[simp] theorem highWord_append (hi lo : Word) : highWord (hi ++ lo) = hi := by
  apply BitVec.eq_of_getLsbD_eq
  intro i h
  have e := BitVec.getLsbD_append (x := hi) (y := lo) (i := 32 + i)
  simp only [highWord, BitVec.getLsbD_extractLsb', h, decide_true, Bool.true_and, Nat.not_lt.2 (Nat.le_add_right 32 i),
    if_false, Nat.add_sub_cancel_left] at e ⊢
  exact e

/-- The key words from j on are `ws` exactly when each of them is written with that value. -/
theorem keyWordsFrom_eq_ok_iff (s : State) (j n : Nat) (ws : List Word) :
    keyWordsFrom s j n = .ok ws ↔ ws.length = n ∧ ∀ i (h : i < ws.length), keyWord s (j + i) = some ws[i] := by
  induction n generalizing j ws with
  | zero =>
    simp only [keyWordsFrom, Except.ok.injEq]
    constructor
    · rintro rfl; simp
    · rintro ⟨h, -⟩; exact (List.eq_nil_of_length_eq_zero h).symm
  | succ n ih =>
    simp only [keyWordsFrom]
    constructor
    · intro h
      split at h
      · simp at h
      · rename_i w e1
        split at h
        · simp at h
        · rename_i ws' e2
          simp only [Except.ok.injEq] at h
          subst h
          obtain ⟨hl, hk⟩ := (ih _ _).1 e2
          refine ⟨by simp [hl], fun i hi => ?_⟩
          cases i with
          | zero => simpa using e1
          | succ i =>
            have := hk i (by simpa using hi)
            simpa [Nat.add_assoc, Nat.add_comm, Nat.add_left_comm] using this
    · rintro ⟨hl, hk⟩
      cases ws with
      | nil => simp at hl
      | cons w ws =>
        have e1 := hk 0 (by simp)
        have e2 : keyWordsFrom s (j + 1) n = .ok ws := (ih _ _).2 ⟨by simpa using hl, fun i hi => by
          have := hk (i + 1) (by simpa using hi)
          simpa [Nat.add_assoc, Nat.add_comm, Nat.add_left_comm] using this⟩
        simp only [Nat.add_zero, List.getElem_cons_zero] at e1
        simp only [e1, e2]

/-- The key operand is lost at k exactly when KEY[k] is the first word of it that is UNWRITTEN. -/
theorem keyWordsFrom_eq_error_iff (s : State) (j n k : Nat) :
    keyWordsFrom s j n = .error k ↔
      j ≤ k ∧ k < j + n ∧ keyWord s k = none ∧ ∀ i, j ≤ i → i < k → keyWord s i ≠ none := by
  induction n generalizing j with
  | zero =>
    simp only [keyWordsFrom, reduceCtorEq, false_iff]
    omega
  | succ n ih =>
    simp only [keyWordsFrom]
    cases e : keyWord s j with
    | none =>
      simp only [Except.error.injEq]
      constructor
      · rintro rfl
        exact ⟨Nat.le_refl _, by omega, e, fun i h1 h2 => absurd h1 (by omega)⟩
      · rintro ⟨h1, h2, h3, h4⟩
        by_contra hne
        exact h4 j (Nat.le_refl _) (by omega) e
    | some w =>
      have : (match keyWordsFrom s (j + 1) n with
          | .error k => Except.error k
          | .ok ws => Except.ok (w :: ws)) = Except.error k ↔ keyWordsFrom s (j + 1) n = .error k := by
        cases keyWordsFrom s (j + 1) n <;> simp
      refine Iff.trans this ?_
      rw [ih]
      constructor
      · rintro ⟨h1, h2, h3, h4⟩
        refine ⟨by omega, by omega, h3, fun i h5 h6 => ?_⟩
        by_cases h7 : i = j
        · subst h7; simp [e]
        · exact h4 i (by omega) h6
      · rintro ⟨h1, h2, h3, h4⟩
        have : k ≠ j := by
          rintro rfl
          simp [e] at h3
        exact ⟨by omega, by omega, h3, fun i h5 h6 => h4 i (by omega) h6⟩

/-- What SEED can do. -/
theorem execSeed_cases {s t : State} (h : execSeed s = .next t) :
    (s.busy = false ∧ t = s.accept .seed) ∨ (s.busy = true ∧ t = (performSeed s).complete) := by
  unfold execSeed at h
  split at h <;> simp_all

/-- What SEEDA can do. -/
theorem execSeeda_cases {s t : State} (h : execSeeda s = .next t) :
    (s.busy = false ∧ keyLenOk s.config s.keyLen = true ∧ t = s.accept .seeda) ∨
    (s.busy = false ∧ keyLenOk s.config s.keyLen = false ∧ t = s.seterr .invalidSeed) ∨
    (s.busy = true ∧ keyLenOk s.config s.keyLen = true ∧ ∃ key, keyOperand s = .ok key ∧
      t = (s.loadSeeded (initArray key) 0 true).complete) := by
  unfold execSeeda at h
  split at h
  · rename_i hb
    obtain ⟨u, h1, h2⟩ := andThen_eq_next.1 h
    unfold performSeeda at h1
    split at h1
    · split at h1 <;> simp_all
    · simp at h1
  · split at h <;> simp_all

/-- What an extraction can do. -/
theorem extract_cases {s t : State} (h : extract s = .next t) :
    ∃ y, mtWord s s.cursor.toNat = some y ∧ t = s.extracted (temper y) := by
  unfold extract at h
  split at h <;> simp_all

/-- What PerformNEXT can do. -/
theorem performNext_cases {s t : State} (h : performNext s = .next t) :
    (s.cursor.toNat < 624 ∧ ∃ y, mtWord s s.cursor.toNat = some y ∧ t = s.extracted (temper y)) ∨
    (624 ≤ s.cursor.toNat ∧ ∃ A, mtArray s = some A ∧
      t = (s.afterTwist (twist A)).extracted (temper (word (twist A) 0))) := by
  unfold performNext at h
  split at h
  · rename_i hc
    refine .inr ⟨hc, ?_⟩
    split at h
    · simp at h
    · rename_i A hA
      obtain ⟨y, hy, rfl⟩ := extract_cases h
      have hl := ((mtArray_eq_some_iff s A).1 hA).2
      have : mtWord (s.afterTwist (twist A)) 0 = some (word (twist A) 0) :=
        mtWord_of_words (A := twist A) (by simp) (by simp [hl])
      have e : mtWord (s.afterTwist (twist A)) 0 = some y := hy
      rw [this, Option.some.injEq] at e
      exact ⟨A, hA, by rw [e]⟩
  · rename_i hc
    exact .inl ⟨by simpa using hc, extract_cases h⟩

/-- What NEXT can do. -/
theorem execNext_cases {s t : State} (h : execNext s = .next t) :
    (s.busy = false ∧ s.seeded = true ∧ t = s.accept .next) ∨
    (s.busy = false ∧ s.seeded = false ∧ t = s.seterr .notSeeded) ∨
    (s.busy = true ∧ ∃ u, performNext s = .next u ∧ t = u.complete) := by
  unfold execNext at h
  split at h
  · rename_i hb
    obtain ⟨u, h1, h2⟩ := andThen_eq_next.1 h
    simp only [Host.Outcome.next.injEq] at h2
    exact .inr (.inr ⟨hb, u, h1, h2.symm⟩)
  · split at h <;> simp_all

/-- What CLRERR can do. -/
theorem execClrerr_cases {s t : State} (h : execClrerr s = .next t) :
    (s.busy = false ∧ t = s.accept .clrerr) ∨ (s.busy = true ∧ t = s.clearErr.complete) := by
  unfold execClrerr at h
  split at h <;> simp_all [performClrerr]

/-- While BUSY = 0 a command is issued: it is accepted or it changes nothing but ERR (30_encoding.md R89). -/
theorem exec_idle_cases {i : Instr} {s t : State} (hb : s.busy = false) (h : exec i s = .next t) :
    t = s.accept i ∨ ∃ c, t = s.seterr c := by
  cases i with
  | seed => rcases execSeed_cases h with ⟨_, rfl⟩ | ⟨h1, _⟩ <;> simp_all
  | seeda =>
    rcases execSeeda_cases h with ⟨_, _, rfl⟩ | ⟨_, _, rfl⟩ | ⟨h1, _⟩
    · exact .inl rfl
    · exact .inr ⟨_, rfl⟩
    · simp_all
  | next =>
    rcases execNext_cases h with ⟨_, _, rfl⟩ | ⟨_, _, rfl⟩ | ⟨h1, _⟩
    · exact .inl rfl
    · exact .inr ⟨_, rfl⟩
    · simp_all
  | clrerr => rcases execClrerr_cases h with ⟨_, rfl⟩ | ⟨h1, _⟩ <;> simp_all

end Sys2Proof.Machine
end

