-- ==== Sys2Proof/Laws/PerInstr.lean ====
section
/-!
SUPPORT. A family of statements about every command as syntax: its word.
-/

namespace Sys2Proof.Laws.OpcodeByte

/-- The command is well formed; in its word RSV is 0 and OP is one of 1 to 4 (30_encoding.md R80, R82), and the
decoder reads the command back from the word (R84). -/
def Statement (i : Instr) : Prop :=
  i.wf = true ∧ rsvField (encode i) = 0 ∧ 1 ≤ (opField (encode i)).toNat ∧ (opField (encode i)).toNat ≤ 4 ∧
    decodeWord (encode i) = .ok i

/-- SEED. -/
theorem seed : Statement .seed := by unfold Statement; decide

/-- SEEDA. -/
theorem seeda : Statement .seeda := by unfold Statement; decide

/-- NEXT. -/
theorem next : Statement .next := by unfold Statement; decide

/-- CLRERR. -/
theorem clrerr : Statement .clrerr := by unfold Statement; decide

end Sys2Proof.Laws.OpcodeByte
end

