-- ==== Sys2Proof/Laws/Step.lean ====
section
/-!
SUPPORT. What an access of the Host, a move of an agent and a step can do, said once.
-/

namespace Sys2Proof.Machine

/-- A checked access answers a value only if it is aligned, 32 bits wide and in the window. -/
theorem checkAccess_eq_next {α : Type} {w : Width} {off : Nat} {go : Result α} {a : α} :
    checkAccess w off go = .next a ↔ off < 0x4000 ∧ w = .w32 ∧ off % 4 = 0 ∧ go = .next a := by
  unfold checkAccess
  split
  · split <;> simp_all
  · simp_all

/-- The offset of a key word of the window names it (20_memory.md R56). -/
theorem target_key {c : Config} {i : Nat} (h : i < c.keyMax) (h' : i ≤ 1023) : target c (0x1000 + 4 * i) = .key i := by
  unfold target
  rw [if_neg (by omega), if_pos (by omega), if_pos (by omega)]
  congr 1
  omega

/-- The offset of a state word names it (20_memory.md R57). -/
theorem target_state (c : Config) {i : Nat} (h : i ≤ 623) : target c (0x2000 + 4 * i) = .state i := by
  unfold target
  rw [if_neg (by omega), if_neg (by omega), if_pos (by omega), if_pos (by omega)]
  congr 1
  omega

/-- A read takes at most one draw, and only while BUSY = 1. -/
theorem readReg_cases (r : Reg) (s : State) : (readReg r s).2 = s ∨ (s.busy = true ∧ (readReg r s).2 = s.tick) := by
  cases r <;> simp [readReg, readStatus, readOpen] <;> cases s.busy <;> simp

/-- What HostRead can do: no state but the number of draws changes (20_memory.md R54). -/
theorem hostRead_cases {w : Width} {off : Nat} {s t : State} {v : Word} (h : hostRead w off s = .next (v, t)) :
    t = s ∨ (s.busy = true ∧ t = s.tick) := by
  obtain ⟨_, _, _, h⟩ := checkAccess_eq_next.1 h
  split at h
  · rename_i r _
    simp only [Host.Outcome.next.injEq] at h
    have := readReg_cases r s
    rw [h] at this
    exact this
  · unfold readKey at h
    split at h <;> simp_all
  · unfold readState at h
    split at h
    · simp_all
    · split at h <;> simp_all
  · simp at h

/-- What IssueCommand can do (30_encoding.md R89). -/
theorem issueCommand_cases {cw : Word} {s t : State} (h : issueCommand cw s = .next t) :
    (∃ c, t = s.seterr c) ∨ (s.busy = false ∧ ∃ i, decodeWord cw = .ok i ∧ exec i s = .next t ∧ t = s.accept i) := by
  unfold issueCommand at h
  split at h
  · simp only [Host.Outcome.next.injEq] at h
    exact .inl ⟨_, h.symm⟩
  · rename_i hb
    split at h
    · simp only [Host.Outcome.next.injEq] at h
      exact .inl ⟨_, h.symm⟩
    · rename_i i hi
      rcases exec_idle_cases (by simpa using hb) h with e | e
      · exact .inr ⟨by simpa using hb, i, hi, h, e⟩
      · exact .inl e

/-- What a write to an operand can do (20_memory.md R55). -/
theorem writeOperand_cases {f : State → State} {s t : State} (h : writeOperand f s = .next t) :
    (s.busy = true ∧ t = s.seterr .busyErr) ∨ (s.busy = false ∧ t = f s) := by
  unfold writeOperand at h
  split at h <;> simp_all

/-- What HostWrite can do (20_memory.md R55, R56): record an error, accept a command, or store one operand while BUSY
= 0. -/
theorem hostWrite_cases {w : Width} {off : Nat} {v : Word} {s t : State} (h : hostWrite w off v s = .next t) :
    (∃ c, t = s.seterr c) ∨
    (s.busy = false ∧ ∃ i, decodeWord v = .ok i ∧ exec i s = .next t ∧ t = s.accept i) ∨
    (s.busy = false ∧ (t = s.setSeedLo v ∨ t = s.setSeedHi v ∨ t = s.setKeyLen v ∨ ∃ i, i < s.config.keyMax ∧ t = s.setKey i v)) := by
  obtain ⟨_, _, _, h⟩ := checkAccess_eq_next.1 h
  split at h
  · rename_i r _
    cases r <;> simp only [writeReg, reduceCtorEq] at h
    · rcases issueCommand_cases h with h | h
      · exact .inl h
      · exact .inr (.inl h)
    all_goals
      rcases writeOperand_cases h with ⟨_, h⟩ | ⟨h1, h⟩
      · exact .inl ⟨_, h⟩
      · exact .inr (.inr ⟨h1, by simp [h]⟩)
  · rename_i i hi
    have hlt : i < s.config.keyMax := by
      unfold target at hi
      split at hi
      · split at hi <;> simp at hi
      · split at hi
        · split at hi
          · rename_i h2
            simp only [Target.key.injEq] at hi
            omega
          · simp at hi
        · split at hi
          · split at hi <;> simp at hi
          · simp at hi
    rcases writeOperand_cases h with ⟨_, h⟩ | ⟨h1, h⟩
    · exact .inl ⟨_, h⟩
    · exact .inr (.inr ⟨h1, .inr (.inr (.inr ⟨i, hlt, h⟩))⟩)
  · simp at h
  · simp at h

/-- What the Host's move can do (30_encoding.md R87). -/
theorem hostMove_cases {s t : State} (h : hostMove s = .next t) :
    (s.prog[s.pos]? = none ∧ t = s) ∨
    (∃ w off v u, s.prog[s.pos]? = some (.wr w off v) ∧ hostWrite w off v s = .next u ∧ t = u.wrote off v) ∨
    (∃ w off v u, s.prog[s.pos]? = some (.rd w off) ∧ hostRead w off s = .next (v, u) ∧ t = u.didRead off v) ∨
    (∃ l, s.prog[s.pos]? = some (.bbusy l) ∧ t = s.goTo (if s.r.getLsbD 0 then l else s.pos + 1)) := by
  unfold hostMove at h
  split at h
  · rename_i e
    simp only [Host.Outcome.next.injEq] at h
    exact .inl ⟨e, h.symm⟩
  · rename_i w off v e
    obtain ⟨u, h1, h2⟩ := andThen_eq_next.1 h
    simp only [Host.Outcome.next.injEq] at h2
    exact .inr (.inl ⟨w, off, v, u, e, h1, h2.symm⟩)
  · rename_i w off e
    obtain ⟨⟨v, u⟩, h1, h2⟩ := andThen_eq_next.1 h
    simp only [Host.Outcome.next.injEq] at h2
    exact .inr (.inr (.inl ⟨w, off, v, u, e, h1, h2.symm⟩))
  · rename_i l e
    simp only [Host.Outcome.next.injEq] at h
    exact .inr (.inr (.inr ⟨l, e, h.symm⟩))

/-- What the Engine's move can do (30_encoding.md R90). -/
theorem engineMove_cases {s t : State} (h : engineMove s = .next t) :
    (s.busy = false ∧ t = s) ∨ (s.busy = true ∧ ∃ i, s.pending = some i ∧ exec i s = .next t) := by
  unfold engineMove at h
  split at h
  · rename_i hb
    split at h
    · rename_i i e
      exact .inr ⟨hb, i, e, h⟩
    · simp at h
  · simp_all

/-- What a step can do: the move of whoever moves next, on the state without that move. -/
theorem step_cases {s t : State} (h : step s = .next t) :
    (nextMove s = .host ∧ hostMove (s.withSched s.sched.tail) = .next t) ∨
    (nextMove s = .engine ∧ engineMove (s.withSched s.sched.tail) = .next t) ∨
    (nextMove s = .reset ∧ t = (s.withSched s.sched.tail).hardwareReset) := by
  unfold step systemStep at h
  cases e : nextMove s <;> simp only [e, runMove] at h
  · exact .inl ⟨rfl, h⟩
  · exact .inr (.inl ⟨rfl, h⟩)
  · simp only [Host.Outcome.next.injEq] at h
    exact .inr (.inr ⟨rfl, h.symm⟩)

end Sys2Proof.Machine
end

