-- ==== Sys2Proof/Laws/Runs.lean ====
section
/-!
SUPPORT. What a run of a Host program can do, said once.
-/

namespace Sys2Proof.Machine

theorem runProgram_of_finished {s : State} (h : runFinished s = true) (n : Nat) : runProgram n s = .next (some s) := by
  cases n <;> simp [runProgram, h]

theorem runProgram_succ {s : State} (h : runFinished s = false) (n : Nat) :
    runProgram (n + 1) s = andThen (step s) (runProgram n) := by
  simp [runProgram, h]

/-- A run that ends, ends in a finished state, after a step if it does not begin in one. -/
theorem runProgram_cases {n : Nat} {s t : State} (h : runProgram n s = .next (some t)) :
    runFinished t = true ∧ (t = s ∨ ∃ m u, m < n ∧ step s = .next u ∧ runProgram m u = .next (some t)) := by
  induction n generalizing s with
  | zero =>
    simp only [runProgram] at h
    split at h <;> simp_all
  | succ n ih =>
    cases e : runFinished s with
    | true =>
      rw [runProgram_of_finished e] at h
      simp only [Host.Outcome.next.injEq, Option.some.injEq] at h
      subst h
      exact ⟨e, .inl rfl⟩
    | false =>
      rw [runProgram_succ e] at h
      obtain ⟨u, h1, h2⟩ := andThen_eq_next.1 h
      exact ⟨(ih h2).1, .inr ⟨n, u, by omega, h1, h2⟩⟩

end Sys2Proof.Machine
end

