-- ==== Sys2Proof/Tests/Slice0.lean ====
section
/-!
SUPPORT. Tests of the model, with expected values from spec/95_test_vectors.md, and for every statement with
hypotheses a witness that they can be met.
-/

namespace Sys2Proof.Tests

open Sys2Proof.Machine

/-! ## Small states and readers of outcomes -/

/-- 624 words, every one 0. -/
def zeroWords : List Word := List.replicate 624 0

/-- 624 words: word k is v, the others 0. -/
def oneWord (k : Nat) (v : Word) : List Word := zeroWords.set k v

/-- A block seeded with the words A, with no command pending. -/
def seededWith (A : List Word) : State := { State.reset with mt := A.map some, seeded := true }

/-- The command i pending in s. -/
def pendingIn (i : Instr) (s : State) : State := { s with busy := true, pending := some i }

/-- The Host is at the first statement of p. -/
def withProg (p : List Stmt) (s : State) : State := { s with prog := p }

/-- n bytes 0 from offset a on. -/
def zeroCells : Nat → Nat → Memory
  | _, 0 => []
  | a, n + 1 => (a, 0) :: zeroCells (a + 1) n

/-- Reset, with the first n key words written (as 0) and KEYLEN = L. -/
def keyed (n : Nat) (L : Word) : State := { State.reset with key := zeroCells 0x1000 (4 * n), keyLen := L }

/-- A part of the next state. -/
def after {σ α : Type} (f : σ → α) : Result σ → Option α
  | .next t => some (f t)
  | .fault _ => none
  | .refused _ => none

/-- The value read. -/
def valueRead : Result (Word × State) → Option Word
  | .next p => some p.1
  | .fault _ => none
  | .refused _ => none

/-- The fault. -/
def faultOf {α : Type} : Result α → Option Fault
  | .next _ => none
  | .fault e => some e
  | .refused _ => none

/-! ## Well-formedness -/

/-- Every command is well formed; KEY_MAX is 1 to 1024 (00_scope.md R7). -/
theorem test_wf_config :
    hw.wf = true ∧ { hw with keyMax := 1 }.wf = true ∧ { hw with keyMax := 1024 }.wf = true ∧
    { hw with keyMax := 0 }.wf = false ∧ { hw with keyMax := 1025 }.wf = false := by decide

/-- Statements: width, window, alignment (20_memory.md R51, R52) and the target of a branch (30_encoding.md R88). -/
theorem test_wf_program :
    progWf [.wr .w32 0 1, .rd .w32 4, .bbusy 1] = true ∧ progWf [.wr .w8 0 1] = false ∧ progWf [.rd .w64 4] = false ∧
    progWf [.rd .w32 6] = false ∧ progWf [.wr .w32 2 0] = false ∧ progWf [.rd .w32 0x4000] = false ∧
    progWf [.wr .w32 0x4000 0] = false ∧ progWf [.bbusy 1] = false := by decide

/-! ## Decoding, from 30_encoding.md R80 and R82 (OP in bits 7:0, RSV = 0 in bits 31:8) and V40 -/

theorem test_decode_seed : decodeWord 0b00000000000000000000000000000001 = .ok .seed := by rfl

theorem test_decode_seeda : decodeWord 0b00000000000000000000000000000010 = .ok .seeda := by rfl

theorem test_decode_next : decodeWord 0b00000000000000000000000000000011 = .ok .next := by rfl

theorem test_decode_clrerr : decodeWord 0b00000000000000000000000000000100 = .ok .clrerr := by rfl

/-- V40. -/
theorem test_decode_illegal :
    decodeWord 0x00000000 = .error .reservedOpcode ∧ decodeWord 0x00000005 = .error .reservedOpcode ∧
    decodeWord 0x000000FF = .error .reservedOpcode ∧ decodeWord 0x00000103 = .error .reservedBits ∧
    decodeWord 0x80000001 = .error .reservedBits ∧ decodeWord 0xFFFFFFFF = .error .reservedBits := by
  refine ⟨?_, ?_, ?_, ?_, ?_, ?_⟩ <;> rfl

/-- Byte lane 0 is bits 7:0 (20_memory.md R53). -/
theorem test_decode_bytes :
    decode [0x04, 0, 0, 0, 0xAA] = .ok (.clrerr, [0xAA]) ∧ decode [0, 0, 0, 0x04] = .error .reservedBits ∧
    decode [0x01, 0, 0] = .error .truncated := by
  refine ⟨?_, ?_, ?_⟩ <;> rfl

/-- The opcode table's words. -/
theorem test_decode_table :
    decodeTableWord 32 1 = some .seed ∧ decodeTableWord 32 2 = some .seeda ∧ decodeTableWord 32 3 = some .next ∧
    decodeTableWord 32 4 = some .clrerr ∧ decodeTableWord 32 5 = none := by decide

/-- The first step after reset issues the table's words; V41 rows 1 and 4. -/
theorem test_first_step :
    after (·.pending) (step (State.reset.withFetchWord 32 1)) = some (some .seed) ∧
    after (·.err) (step (State.reset.withFetchWord 32 2)) = some .invalidSeed ∧
    after (·.err) (step (State.reset.withFetchWord 32 3)) = some .notSeeded ∧
    after (·.pending) (step (State.reset.withFetchWord 32 4)) = some (some .clrerr) := by decide +kernel

/-! ## The algorithms -/

/-- V10. -/
theorem test_genrand :
    let A := initGenrand 5489
    word A 0 = 0x00001571 ∧ word A 1 = 0x4D98EE96 ∧ word A 2 = 0xAF25F095 ∧ word A 3 = 0xAFD9BA96 ∧
    word A 623 = 0x04C46D8C := by decide +kernel

/-- V23. -/
theorem test_tw :
    twistWord 0 0 0 = 0 ∧ twistWord 0 1 0 = 0x9908B0DF ∧ twistWord 0x80000000 0 0 = 0x40000000 ∧
    twistWord 0x80000000 1 0 = 0xD908B0DF ∧ twistWord 0x7FFFFFFF 0xFFFFFFFF 0 = 0xA6F74F20 ∧
    twistWord 0xFFFFFFFF 0x80000000 0x12345678 = 0x52345678 ∧
    twistWord 0x80000000 0x7FFFFFFF 0xFFFFFFFF = 0x1908B0DF := by decide

/-- V30. -/
theorem test_temper :
    temper 0 = 0 ∧ temper 1 = 0x00400091 ∧ temper 0x800 = 0x04440990 ∧ temper 0x12345678 = 0x2B7E4A2D ∧
    temper 0x80000000 = 0x88102204 ∧ temper 0xFFFFFFFF = 0x6FE01BF8 ∧ temper 0x9B0AFA27 = 0xD091BB5C ∧
    temper 0x266EF095 = 0x3FA23623 ∧ temper 0x1110868D = 0xF914DC58 := by decide

/-- V20, the first word of the first twist of the V10 state. -/
theorem test_twist_first : word (twistStep (initGenrand 5489) 0) 0 = 0x9B0AFA27 := by decide +kernel

/-- 41_seeding.md R106: pass 1 at i = 623 wraps, copies the last word to the first, and j starts again at L. -/
theorem test_pass1_wrap :
    let x := pass1Step [7] { A := oneWord 623 5, i := 623, j := 0 }
    x.i = 1 ∧ x.j = 0 ∧ word x.A 623 = 12 ∧ word x.A 0 = 12 := by decide +kernel

/-- V50. -/
theorem test_float :
    open01 1 = 0x3DF8000000000000 ∧ open01 0x80000000 = 0x3FE0000000100000 ∧ halfOpen01 1 = 0x3DF0000000000000 ∧
    halfOpen01 1067595299 = 0x3FCFD11B11800000 ∧ closed01 0 = 0 ∧ closed01 0x80000000 = 0x3FE0000000100000 := by
  decide +kernel

/-- 45_host_float.md R184 with V30 and V50: next_f64 extracts 1067595299 and maps it, in five steps and no fewer; at
reset it leaves NOT_SEEDED. -/
theorem test_next_f64 :
    let s := { seededWith (oneWord 623 0x266EF095) with cursor := 623 }
    after (fun o => o.map Prod.fst) (nextF64 5 s) = some (some 0x3FCFD11B11C00000) ∧
    after Option.isNone (nextF64 4 s) = some true ∧
    after (fun o => o.map fun p => p.2.err) (nextF64 5 State.reset) = some (some .notSeeded) := by decide +kernel

/-! ## One command, one step -/

/-- V10, V15: SEED_LO alone seeds, SEED_HI goes to ORIG_SEED; STATUS is 0x02700002. -/
theorem test_seed :
    let o := exec .seed (pendingIn .seed { State.reset with seedLo := 5489, seedHi := 1 })
    after (fun t => mtWord t 1) o = some (some 0x4D98EE96) ∧ after (·.origSeed) o = some 0x0000000100001571 ∧
    after (fun t => valueRead (hostRead .w32 0x004 t)) o = some (some 0x02700002) := by decide +kernel

/-- V11: the same command under LCG69069. -/
theorem test_seed_lcg :
    let s := { State.reset with seedLo := 1, config := { hw with intSeedAlg := .lcg69069 } }
    let o := exec .seed (pendingIn .seed s)
    after (fun t => mtWord t 0) o = some (some 1) ∧ after (fun t => mtWord t 1) o = some (some 69069) := by
  decide +kernel

/-- V41: KEYLEN = 0 and KEYLEN = 625 are refused; 624 is accepted. -/
theorem test_seeda_issue :
    after (·.err) (exec .seeda State.reset) = some .invalidSeed ∧
    after (·.err) (exec .seeda (keyed 0 625)) = some .invalidSeed ∧
    after (·.pending) (exec .seeda (keyed 0 624)) = some (some .seeda) := by decide +kernel

/-- V41: with KEY_MAX = 1024 SEEDA at KEYLEN = 625 is accepted, KEYMAX reads 1024 and the last key word stands at
0x1FFC. -/
theorem test_key_max :
    let s := { keyed 0 625 with config := { hw with keyMax := 1024 } }
    after (·.pending) (exec .seeda s) = some (some .seeda) ∧ valueRead (hostRead .w32 0x028 s) = some 1024 ∧
    after (fun t => valueRead (hostRead .w32 0x1FFC t)) (hostWrite .w32 0x1FFC 7 s) = some (some 7) := by decide +kernel

/-- 41_seeding.md R110, 60_exceptions.md R218: the first key word below KEYLEN that was never written. -/
theorem test_seeda_unwritten : faultOf (exec .seeda (pendingIn .seeda (keyed 1 2))) = some (.unwrittenKeyUse 1) := by
  decide +kernel

/-- 43_extract.md R151 without a twist, with the last word of the array (0x12345678, V30). -/
theorem test_next_last :
    let o := exec .next (pendingIn .next { seededWith (oneWord 623 0x12345678) with cursor := 623 })
    after (·.out) o = some 0x2B7E4A2D ∧ after (·.cursor) o = some 624 ∧ after (·.twists) o = some 0 := by decide +kernel

/-- V41: NEXT at reset is refused and STATUS reads 0x02700020; a second NEXT while one is pending is BUSY_ERR. -/
theorem test_next_issue :
    after (fun t => valueRead (hostRead .w32 0x004 t)) (exec .next State.reset) = some (some 0x02700020) ∧
    after (·.err) (hostWrite .w32 0x000 3 (pendingIn .next (seededWith zeroWords))) = some .busyErr ∧
    after (·.err) (hostWrite .w32 0x000 0x103 (pendingIn .next (seededWith zeroWords))) = some .busyErr := by
  decide +kernel

/-- V41: the STATUS words with each error code. -/
theorem test_status_words :
    statusWord 624 .illegalCmd false false false = 0x02700030 ∧ statusWord 624 .invalidSeed false false false = 0x02700010 ∧
    statusWord 1 .invalidSeed false true false = 0x00010012 ∧ statusWord 1 .busyErr false true false = 0x00010042 ∧
    statusWord 1 .noError true true false = 0x00010006 := by decide

/-- V41, last row. -/
theorem test_clrerr :
    after (fun t => valueRead (hostRead .w32 0x004 t)) (runCommand .clrerr { State.reset with err := .notSeeded }) =
      some (some 0x02700000) := by decide +kernel

/-! ## The window -/

/-- V42, V60. -/
theorem test_reads :
    valueRead (hostRead .w32 0x000 State.reset) = some 0 ∧ valueRead (hostRead .w32 0x004 State.reset) = some 0x02700000 ∧
    valueRead (hostRead .w32 0x024 State.reset) = some 0x4D543139 ∧
    valueRead (hostRead .w32 0x028 State.reset) = some 0x00000270 ∧
    faultOf (hostRead .w32 0x2000 State.reset) = some (.unseededStateRead 0) ∧
    faultOf (hostRead .w32 0x1000 State.reset) = some (.unwrittenKeyRead 0) := by decide +kernel

/-- V42. -/
theorem test_bus_errors :
    faultOf (hostRead .w8 0x004 State.reset) = some (.busError 0x004) ∧
    faultOf (hostWrite .w16 0x008 0 State.reset) = some (.busError 0x008) ∧
    faultOf (hostRead .w32 0x006 State.reset) = some (.busError 0x006) ∧
    faultOf (hostWrite .w32 0x024 0 State.reset) = some (.busError 0x024) ∧
    faultOf (hostWrite .w32 0x2000 0 State.reset) = some (.busError 0x2000) ∧
    faultOf (hostRead .w32 0x02C State.reset) = some (.busError 0x02C) ∧
    faultOf (hostRead .w32 0x19C0 State.reset) = some (.busError 0x19C0) ∧
    faultOf (hostRead .w32 0x29C0 State.reset) = some (.busError 0x29C0) ∧
    faultOf (hostRead .w32 0x3000 State.reset) = some (.busError 0x3000) := by decide +kernel

/-- V42: STATE(623) after seed 5489. -/
theorem test_state_read :
    valueRead (hostRead .w32 0x29BC (seededWith (initGenrand 5489))) = some 0x04C46D8C := by decide +kernel

/-- 20_memory.md R53, R56: a key word is read back as written. -/
theorem test_key_write :
    after (fun t => valueRead (hostRead .w32 0x19BC t)) (hostWrite .w32 0x19BC 0x12345678 State.reset) =
      some (some 0x12345678) := by decide +kernel

/-! ## The assembler -/

/-- 30_encoding.md R88: what is refused, and a loop by a label of one's own. -/
theorem test_assemble :
    assemble hw (.line (some "poll") (.rd (.name "STATUS")) (.line none (.bbusy "poll") .done)) =
      .ok [.rd .w32 0x004, .bbusy 0] ∧
    assemble hw (.rep none 2 (.line none (.rd (.state 623)) .done) .done) = .ok [.rd .w32 0x29BC, .rd .w32 0x29BC] ∧
    assemble hw (.line none (.rd (.key 624)) .done) = .error .keyIndex ∧
    assemble hw (.line none (.rd (.state 624)) .done) = .error .stateIndex ∧
    assemble hw (.line none (.wr (.name "CMD") (2 ^ 32)) .done) = .error .valueTooLarge ∧
    assemble hw (.line none (.seeda []) .done) = .error .keyLength ∧
    assemble hw (.line none (.cmd "HALT") .done) = .error .unknownName ∧
    assemble hw (.line none (.bbusy "x") .done) = .error .unknownLabel := by
  refine ⟨?_, ?_, ?_, ?_, ?_, ?_, ?_, ?_⟩ <;> rfl

/-! ## Witnesses: the hypotheses of every statement can be met, clause by clause -/

/-- One byte of a run of zero cells. -/
theorem readByte_zeroCells (a n b : Nat) :
    (zeroCells a n).readByte b = if a ≤ b ∧ b < a + n then some 0 else none := by
  induction n generalizing a with
  | zero => simp [zeroCells, Memory.readByte]
  | succ n ih =>
    simp only [zeroCells, Memory.readByte, ih]
    by_cases h : b = a
    · simp [h]
    · simp only [h, if_false]
      congr 1
      simp only [eq_iff_iff]
      omega

/-- The written key words of `keyed` read as 0, and no other is written. -/
theorem keyWord_keyed (n : Nat) (L : Word) (j : Nat) : keyWord (keyed n L) j = if j < n then some 0 else none := by
  simp only [keyWord, keyed, Memory.readWord, readByte_zeroCells, keyOffset]
  by_cases h : j < n
  · rw [if_pos (by omega), if_pos (by omega), if_pos (by omega), if_pos (by omega), if_pos h]
    rfl
  · rw [if_neg (by omega), if_neg h]

/-- Reset meets the invariant. -/
theorem reset_inv : Inv State.reset where
  mtLength := by simp
  cursorRange := by simp
  busyPending := by simp
  seededWritten := by simp
  unseededBlank := by simp
  nextSeeded := by simp
  seedaLength := by simp
  keyCanonical := by simp
  keyInWindow := by simp
  configWf := rfl

theorem length_zeroWords : zeroWords.length = 624 := List.length_replicate

/-- A seeded block meets the invariant, with NEXT pending and without. -/
theorem seeded_inv : Inv (seededWith zeroWords) ∧ Inv (pendingIn .next (seededWith zeroWords)) := by
  constructor <;> constructor <;> simp [seededWith, pendingIn, length_zeroWords]

/-- The zero array is just seeded. -/
theorem justSeeded_zero : JustSeeded zeroWords (seededWith zeroWords) where
  idle := rfl
  seeded := rfl
  exhausted := rfl
  counter := rfl
  words := rfl
  length := length_zeroWords

/-- The twist sequence that begins with the words of A. -/
def extend (A : List Word) (n : Nat) : Word :=
  if h : n < 624 then A.getD n 0
  else
    let y := (extend A (n - 624) &&& 0x80000000) ||| (extend A (n - 623) &&& 0x7FFFFFFF)
    extend A (n - 227) ^^^ ((y >>> 1) ^^^ (if y.getLsbD 0 then 0x9908B0DF else 0))
termination_by n

theorem extend_start (A : List Word) : ∀ k, k < 624 → extend A k = A.getD k 0 := fun k h => by
  rw [extend, dif_pos h]

theorem extend_isTwistSequence (A : List Word) : IsTwistSequence (extend A) := fun n => by
  rw [extend, dif_neg (by omega), show n + 624 - 624 = n by omega, show n + 624 - 623 = n + 1 by omega,
    show n + 624 - 227 = n + 397 by omega]

/-- DecodeEncodeAgree: both sides, with bytes after the command. -/
theorem test_witness_DecodeEncodeAgree :
    decode [0x02, 0, 0, 0, 0xFF] = .ok (.seeda, [0xFF]) ∧ [0x02, 0, 0, 0, 0xFF] = encodeBytes .seeda ++ [0xFF] :=
  ⟨by rfl, by decide⟩

/-- IllegalWordsRefused: the words next to the legal ones, and the largest. -/
theorem test_witness_IllegalWordsRefused :
    State.reset.busy = false ∧ (∃ e, decodeWord 0 = .error e) ∧ (∃ e, decodeWord 5 = .error e) ∧
    (∃ e, decodeWord 0xFF = .error e) ∧ (∃ e, decodeWord 0x100 = .error e) ∧ (∃ e, decodeWord 0xFFFFFFFF = .error e) ∧
    ∃ i, decodeWord 4 = .ok i :=
  ⟨rfl, ⟨_, rfl⟩, ⟨_, rfl⟩, ⟨_, rfl⟩, ⟨_, rfl⟩, ⟨_, rfl⟩, ⟨_, rfl⟩⟩

/-- StepIssuesDecodedCommand. -/
theorem test_witness_StepIssuesDecodedCommand :
    let s := withProg [.wr .w32 0x000 3] State.reset
    nextMove s = .host ∧ s.prog[s.pos]? = some (.wr .w32 0x000 3) ∧ s.busy = false ∧ decodeWord 3 = .ok .next :=
  ⟨rfl, rfl, rfl, rfl⟩

/-- StepCompletesPendingCommand: the Engine moves with a command pending, and with none. -/
theorem test_witness_StepCompletesPendingCommand :
    (let s := pendingIn .next (seededWith zeroWords)
     nextMove s = .engine ∧ s.busy = true ∧ s.pending = some .next) ∧
    let s := { State.reset with sched := [.engine] }
    nextMove s = .engine ∧ s.busy = false := ⟨⟨rfl, rfl, rfl⟩, rfl, rfl⟩

/-- PlacedWordIsIssuedNext. -/
theorem test_witness_PlacedWordIsIssuedNext :
    decodeTableWord 32 1 = some .seed ∧ decodeTableWord 32 4 = some .clrerr := by decide

/-- HostStatementsRun: a write, a read, a branch, and the end of the program. -/
theorem test_witness_HostStatementsRun :
    (∀ p, nextMove (withProg p State.reset) = .host) ∧
    (withProg [.wr .w32 8 7] State.reset).prog[(0 : Nat)]? = some (.wr .w32 8 7) ∧
    (withProg [.rd .w32 4] State.reset).prog[(0 : Nat)]? = some (.rd .w32 4) ∧
    (withProg [.bbusy 0] State.reset).prog[(0 : Nat)]? = some (.bbusy 0) ∧
    (withProg [] State.reset).prog.length ≤ 0 := ⟨fun _ => rfl, rfl, rfl, rfl, Nat.le_refl 0⟩

/-- IssueChecksInOrder, clause by clause; the conditions on KEYLEN at 0, 1, 624 and 625. -/
theorem test_witness_IssueChecksInOrder :
    (pendingIn .seed State.reset).busy = true ∧ State.reset.busy = false ∧ (∃ e, decodeWord 0 = .error e) ∧
    (decodeWord 3 = .ok .next ∧ State.reset.seeded = false ∧ (seededWith zeroWords).seeded = true) ∧
    (decodeWord 2 = .ok .seeda ∧ State.reset.keyLen = 0 ∧ 624 < (keyed 0 625).keyLen.toNat) ∧
    ((keyed 0 1).keyLen ≠ 0 ∧ (keyed 0 1).keyLen.toNat ≤ 624 ∧ (keyed 0 624).keyLen.toNat ≤ 624) :=
  ⟨rfl, rfl, ⟨_, rfl⟩, ⟨rfl, rfl, rfl⟩, ⟨rfl, rfl, by decide⟩, by decide, by decide, by decide⟩

/-- InvalidSeedKeepsGenerator: KEYLEN = 0 on a seeded block, and KEYLEN = 625. -/
theorem test_witness_InvalidSeedKeepsGenerator :
    ((seededWith zeroWords).busy = false ∧ (seededWith zeroWords).keyLen = 0 ∧ (seededWith zeroWords).seeded = true) ∧
    (keyed 0 625).busy = false ∧ 624 < (keyed 0 625).keyLen.toNat := ⟨⟨rfl, rfl, rfl⟩, rfl, by decide⟩

/-- NextBeforeSeedingRefused: before and after a seeding, and a step on a seeded block that is no reset. -/
theorem test_witness_NextBeforeSeedingRefused :
    (State.reset.busy = false ∧ State.reset.seeded = false) ∧
    ((seededWith zeroWords).busy = false ∧ (seededWith zeroWords).seeded = true) ∧
    nextMove (seededWith zeroWords) ≠ .reset ∧ ∃ t, step (seededWith zeroWords) = .next t :=
  ⟨⟨rfl, rfl⟩, ⟨rfl, rfl⟩, by decide, _, rfl⟩

/-- BusyWritesDiscarded: the first and the last offset of each kind, and a read. -/
theorem test_witness_BusyWritesDiscarded :
    (pendingIn .seed State.reset).busy = true ∧ commandOrOperandOffset hw 0x000 ∧ commandOrOperandOffset hw 0x010 ∧
    commandOrOperandOffset hw 0x1000 ∧ commandOrOperandOffset hw 0x19BC ∧
    ∃ u t, hostRead .w32 0x010 (pendingIn .seed State.reset) = .next (u, t) :=
  ⟨rfl, by decide, by decide, by decide, by decide, _, _, rfl⟩

/-- FirstErrorIsKept: ERR cleared by CLRERR and by reset; an accepted and a refused command; a refused write. -/
theorem test_witness_FirstErrorIsKept :
    (∃ t, step (pendingIn .clrerr { State.reset with err := .notSeeded }) = .next t ∧ t.err ≠ .notSeeded) ∧
    (∃ t, step { State.reset with err := .busyErr, sched := [.reset] } = .next t ∧ t.err ≠ .busyErr) ∧
    (∃ t u, State.reset.busy = false ∧ State.reset.err = .noError ∧ hostWrite .w32 0x000 4 State.reset = .next t ∧
      t.busy = true ∧ t.pending = some .clrerr ∧ exec .clrerr t = .next u) ∧
    (∃ t, hostWrite .w32 0x000 3 { State.reset with err := .illegalCmd } = .next t ∧ t.busy = false) ∧
    ∃ t, hostWrite .w32 0x000 3 (pendingIn .seed State.reset) = .next t ∧ (pendingIn .seed State.reset).busy = true :=
  ⟨⟨_, rfl, by decide⟩, ⟨_, rfl, by decide⟩, ⟨_, _, rfl, rfl, rfl, rfl, rfl, rfl⟩, ⟨_, rfl, rfl⟩, ⟨_, rfl, rfl⟩⟩

/-- SeedCompletes. -/
theorem test_witness_SeedCompletes : (pendingIn .seed State.reset).busy = true := rfl

/-- SeedaCompletes: a key of 1 word, and of 624. -/
theorem test_witness_SeedaCompletes :
    (∃ key : List Word, (pendingIn .seeda (keyed 1 1)).busy = true ∧ key.length = (keyed 1 1).keyLen.toNat ∧
      1 ≤ key.length ∧ key.length ≤ 624 ∧ ∀ j (h : j < key.length), keyWord (pendingIn .seeda (keyed 1 1)) j = some key[j]) ∧
    (∃ key : List Word, (pendingIn .seeda (keyed 624 624)).busy = true ∧ key.length = (keyed 624 624).keyLen.toNat ∧
      1 ≤ key.length ∧ key.length ≤ 624 ∧
      ∀ j (h : j < key.length), keyWord (pendingIn .seeda (keyed 624 624)) j = some key[j]) := by
  refine ⟨⟨[0], rfl, rfl, by decide, by decide, fun j h => ?_⟩, ⟨zeroWords, rfl, ?_, ?_, ?_, fun j h => ?_⟩⟩
  · have e := keyWord_keyed 1 1 j
    rw [if_pos (by simpa using h)] at e
    simp only [List.length_singleton, Nat.lt_one_iff] at h
    subst h
    exact e
  · rw [length_zeroWords]; rfl
  · rw [length_zeroWords]; decide
  · rw [length_zeroWords]
  · have e := keyWord_keyed 624 624 j
    rw [length_zeroWords] at h
    rw [if_pos h] at e
    rw [show keyWord (pendingIn .seeda (keyed 624 624)) j = some 0 from e]
    exact congrArg some (List.getElem_replicate ..).symm

/-- SeedaFaultsOnUnwrittenKey: no word of a key of 1 written, and all but the last of 624. -/
theorem test_witness_SeedaFaultsOnUnwrittenKey :
    ((pendingIn .seeda (keyed 0 1)).busy = true ∧ (keyed 0 1).keyLen.toNat ≤ 624 ∧ 0 < (keyed 0 1).keyLen.toNat ∧
      keyWord (pendingIn .seeda (keyed 0 1)) 0 = none) ∧
    ((keyed 623 624).keyLen.toNat ≤ 624 ∧ 623 < (keyed 623 624).keyLen.toNat ∧
      keyWord (pendingIn .seeda (keyed 623 624)) 623 = none) :=
  ⟨⟨rfl, by decide, by decide, keyWord_keyed 0 1 0⟩, by decide, by decide, keyWord_keyed 623 624 623⟩

/-- NextCompletes: CURSOR at 623, below the twist, and at 624. -/
theorem test_witness_NextCompletes :
    let s := pendingIn .next (seededWith zeroWords)
    s.busy = true ∧ s.mt = zeroWords.map some ∧ zeroWords.length = 624 ∧ 624 ≤ s.cursor.toNat ∧
    { s with cursor := 623 }.cursor.toNat < 624 := ⟨rfl, rfl, length_zeroWords, by decide, by decide⟩

/-- ClrerrClearsError: both values of BUSY. -/
theorem test_witness_ClrerrClearsError :
    (pendingIn .clrerr State.reset).busy = true ∧ State.reset.busy = false := ⟨rfl, rfl⟩

/-- A SEED completes. -/
theorem seed_completes {s : State} (h : s.busy = true) : exec .seed s = .next (performSeed s).complete := if_pos h

/-- The Engine's step on a pending SEED. -/
theorem step_seed : step (pendingIn .seed State.reset) = .next (performSeed (pendingIn .seed State.reset)).complete := by
  have e : step (pendingIn .seed State.reset) = exec .seed (pendingIn .seed State.reset) := rfl
  rw [e, seed_completes rfl]

/-- The key operand of one word. -/
theorem keyOperand_keyed : keyOperand (pendingIn .seeda (keyed 1 1)) = .ok [0] :=
  (keyWordsFrom_eq_ok_iff _ _ _ _).2 ⟨rfl, fun i hi => by
    simp only [List.length_singleton, Nat.lt_one_iff] at hi
    subst hi
    exact keyWord_keyed 1 1 0⟩

/-- A SEEDA with its key written completes. -/
theorem seeda_completes_keyed : ∃ t, exec .seeda (pendingIn .seeda (keyed 1 1)) = .next t := by
  have h : keyOperand (pendingIn .seeda (keyed 1 1)) = .ok [0] := keyOperand_keyed
  have e : exec .seeda (pendingIn .seeda (keyed 1 1)) = andThen (performSeeda (pendingIn .seeda (keyed 1 1))) fun t =>
      .next t.complete := rfl
  have f : keyLenOk (pendingIn .seeda (keyed 1 1)).config (pendingIn .seeda (keyed 1 1)).keyLen = true := by decide
  rw [e, performSeeda, if_pos f, h]
  exact ⟨_, rfl⟩

/-- A NEXT on a written array answers a next state that still has a written array. -/
theorem next_completes_written {A : List Word} {s : State} (hb : s.busy = true) (hm : s.mt = A.map some)
    (hl : A.length = 624) (hc : s.cursor.toNat ≤ 624) :
    ∃ (t : State) (B : List Word), exec .next s = .next t ∧ t.mt = B.map some ∧ B.length = 624 ∧ t.cursor.toNat ≤ 624 ∧ t.busy = false ∧
      t.seeded = s.seeded := by
  have e : exec .next s = andThen (performNext s) fun t => .next t.complete := if_pos hb
  by_cases h : 624 ≤ s.cursor.toNat
  · have hA := (mtArray_eq_some_iff s A).2 ⟨hm, hl⟩
    have hw : mtWord (s.afterTwist (twist A)) 0 = some (word (twist A) 0) :=
      mtWord_of_words (A := twist A) (by simp) (by simp [hl])
    have hx : extract (s.afterTwist (twist A)) =
        .next ((s.afterTwist (twist A)).extracted (temper (word (twist A) 0))) := by
      unfold extract
      rw [show (s.afterTwist (twist A)).cursor.toNat = 0 from rfl, hw]
    rw [e, performNext, if_pos h, hA]
    simp only [hx, andThen_next]
    exact ⟨_, twist A, rfl, by simp, by simp [hl], by simp, by simp, by simp⟩
  · have hw : mtWord s s.cursor.toNat = some (word A s.cursor.toNat) := mtWord_of_words hm (by omega)
    have hx : extract s = .next (s.extracted (temper (word A s.cursor.toNat))) := by
      unfold extract
      rw [hw]
    rw [e, performNext, if_neg h, hx]
    refine ⟨_, A, rfl, hm, hl, ?_, rfl, rfl⟩
    simp only [State.complete_cursor, State.extracted_cursor]
    bv_omega

/-- NEXT given any number of times to a seeded block answers a next state. -/
theorem nextTimes_seeded (A : List Word) (hl : A.length = 624) (c : Nat) :
    ∃ (t : State) (B : List Word), nextTimes c (seededWith A) = .next t ∧ t.mt = B.map some ∧ B.length = 624 ∧ t.cursor.toNat ≤ 624 ∧
      t.busy = false ∧ t.seeded = true := by
  induction c with
  | zero => exact ⟨_, A, rfl, rfl, hl, Nat.le_refl 624, rfl, rfl⟩
  | succ c ih =>
    obtain ⟨t, B, h, hm, hB, hc, hb, hs⟩ := ih
    have e : exec .next t = .next (t.accept .next) := by
      unfold exec execNext
      simp [hb, hs]
    obtain ⟨u, C, h1, h2, h3, h4, h5, h6⟩ := next_completes_written (s := t.accept .next) rfl hm hB hc
    refine ⟨u, C, ?_, h2, h3, h4, h5, h6.trans hs⟩
    simp only [nextTimes, h, andThen_next, runCommand, e, State.accept_busy, if_true, h1]

/-- CommandsLeaveOperands and CommandsLeaveGenerator: each command issued, and each completed. -/
theorem test_witness_CommandsLeave :
    (∃ t, exec .seed State.reset = .next t) ∧ (∃ t, exec .seeda (keyed 1 1) = .next t) ∧
    (∃ t, exec .next (seededWith zeroWords) = .next t) ∧ (∃ t, exec .clrerr State.reset = .next t) ∧
    (∃ t, exec .seed (pendingIn .seed State.reset) = .next t) ∧
    (∃ t, exec .seeda (pendingIn .seeda (keyed 1 1)) = .next t) ∧
    (∃ t, exec .next (pendingIn .next { seededWith zeroWords with cursor := 623 }) = .next t) ∧
    (∃ t, exec .next (pendingIn .next (seededWith zeroWords)) = .next t) ∧
    ∃ t, exec .clrerr (pendingIn .clrerr State.reset) = .next t := by
  refine ⟨⟨_, rfl⟩, ⟨_, rfl⟩, ⟨_, rfl⟩, ⟨_, rfl⟩, ⟨_, seed_completes rfl⟩, seeda_completes_keyed, ?_, ?_, ⟨_, rfl⟩⟩
  · obtain ⟨t, _, h, _⟩ := next_completes_written
      (s := pendingIn .next { seededWith zeroWords with cursor := 623 }) rfl rfl length_zeroWords (by decide)
    exact ⟨t, h⟩
  · obtain ⟨t, _, h, _⟩ := next_completes_written
      (s := pendingIn .next (seededWith zeroWords)) rfl rfl length_zeroWords (by decide)
    exact ⟨t, h⟩

/-- HostMovesLeaveGenerator: a move of the Host while BUSY = 0, and while BUSY = 1. -/
theorem test_witness_HostMovesLeaveGenerator :
    (∃ t, nextMove (withProg [.wr .w32 8 7] State.reset) = .host ∧
      step (withProg [.wr .w32 8 7] State.reset) = .next t) ∧
    ∃ s t, s = { withProg [.wr .w32 8 7] (pendingIn .seed State.reset) with sched := [.host] } ∧ nextMove s = .host ∧
      s.busy = true ∧ step s = .next t :=
  ⟨⟨_, rfl, rfl⟩, ⟨_, _, rfl, rfl, rfl, rfl⟩⟩

/-- StateArrayWriters: MT changes at SEED, at a NEXT that twists, and at reset. -/
theorem test_witness_StateArrayWriters :
    (∃ t, step (pendingIn .seed State.reset) = .next t ∧ t.mt ≠ State.reset.mt ∧ State.reset.mt.length = 624) ∧
    (∃ t, step (pendingIn .next (seededWith (oneWord 1 1))) = .next t ∧ t.mt ≠ (seededWith (oneWord 1 1)).mt) ∧
    ∃ t, step { seededWith zeroWords with sched := [.reset] } = .next t ∧ t.mt ≠ (seededWith zeroWords).mt := by
  refine ⟨⟨_, step_seed, ?_, by simp⟩, ?_, ⟨_, rfl, ?_⟩⟩
  · intro h
    have := congrArg (fun l : List (Option Word) => l.head?) h
    revert this
    decide +kernel
  · have h : after (fun t => mtWord t 0) (step (pendingIn .next (seededWith (oneWord 1 1)))) = some (some 0x9908B0DF) := by
      decide +kernel
    unfold after at h
    split at h
    · rename_i t e
      have h : (t.mt[0]?).join = some 0x9908B0DF := Option.some.inj h
      refine ⟨t, e, fun hm => ?_⟩
      rw [hm] at h
      revert h
      decide +kernel
    · simp at h
    · simp at h
  · intro h
    have := congrArg (fun l : List (Option Word) => l.head?) h
    revert this
    decide +kernel

/-- SeededSetAndCleared: SEEDED set by SEED, and cleared by reset. -/
theorem test_witness_SeededSetAndCleared :
    (∃ t, step (pendingIn .seed State.reset) = .next t ∧ State.reset.seeded = false ∧ t.seeded = true) ∧
    ∃ t, step { seededWith zeroWords with sched := [.reset] } = .next t ∧ (seededWith zeroWords).seeded = true ∧
      t.seeded = false :=
  ⟨⟨_, step_seed, rfl, rfl⟩, ⟨_, rfl, rfl, rfl⟩⟩

/-- SeedIsIdempotent: SEED on an unseeded and on a seeded block. -/
theorem test_witness_SeedIsIdempotent :
    ∃ s₁ s₂ t₁ t₂, s₁ = pendingIn .seed State.reset ∧ s₂ = pendingIn .seed (seededWith zeroWords) ∧ s₁.busy = true ∧
      s₂.busy = true ∧ s₁.seedLo = s₂.seedLo ∧ s₁.seedHi = s₂.seedHi ∧ exec .seed s₁ = .next t₁ ∧
      exec .seed s₂ = .next t₂ :=
  ⟨_, _, _, _, rfl, rfl, rfl, rfl, rfl, rfl, seed_completes rfl, seed_completes rfl⟩

/-- SeededArrayNotAllZero: a word of a GENRAND array is 0, the first and the last but one (by running the recurrence
backwards from word 622). -/
theorem test_witness_SeededArrayNotAllZero :
    (initGenrand 0).getD (1 - 1) 0 = 0 ∧ (initGenrand 0xCF256DB2).getD (623 - 1) 0 = 0 := by decide +kernel

/-- ArraySeedingIndices: a key, an array, and the first and the last index that pass 2 can begin at. -/
theorem test_witness_ArraySeedingIndices :
    ([0] : List Word) ≠ [] ∧ zeroWords.length = 624 ∧ (1 ≤ 1 ∧ 1 ≤ 623) ∧ 1 ≤ 623 ∧ 623 ≤ 623 :=
  ⟨by decide, length_zeroWords, by decide, by decide, by decide⟩

/-- FirstWordLowBitsUnread. -/
theorem test_witness_FirstWordLowBitsUnread :
    zeroWords.length = 624 ∧ (0x7FFFFFFF : Word).getLsbD 31 = (zeroWords.getD 0 0).getLsbD 31 :=
  ⟨length_zeroWords, by decide +kernel⟩

/-- TwistIsThreeSegments, and OtherTwistOrdersDiffer with the last index of each of its ranges. -/
theorem test_witness_TwistIsThreeSegments : zeroWords.length = 624 ∧ 226 < 227 ∧ 622 < 623 :=
  ⟨length_zeroWords, by decide, by decide⟩

/-- AllZeroStateStaysZero. -/
theorem test_witness_AllZeroStateStaysZero :
    zeroWords.length = 624 ∧ (∀ w ∈ zeroWords, w = 0) ∧ (seededWith zeroWords).busy = false ∧
    (seededWith zeroWords).seeded = true ∧ (seededWith zeroWords).mt = zeroWords.map some :=
  ⟨length_zeroWords, fun _ h => (List.mem_replicate.1 h).2, rfl, rfl, rfl⟩

/-- GenerationsAreOneSequence: an array, its sequence, a block just seeded with it, and any number of NEXT commands.
-/
theorem test_witness_GenerationsAreOneSequence :
    zeroWords.length = 624 ∧ (∀ k, k < 624 → extend zeroWords k = zeroWords.getD k 0) ∧
    IsTwistSequence (extend zeroWords) ∧ JustSeeded zeroWords (seededWith zeroWords) ∧
    (∀ c, ∃ u, nextTimes c (seededWith zeroWords) = .next u) ∧
    (extend zeroWords 0).getLsbD 31 = (extend (oneWord 0 1) 0).getLsbD 31 ∧
    ∀ k, 1 ≤ k → k < 624 → extend zeroWords k = extend (oneWord 0 1) k := by
  refine ⟨length_zeroWords, extend_start _, extend_isTwistSequence _, justSeeded_zero, fun c => ?_, ?_, fun k h1 h2 => ?_⟩
  · obtain ⟨t, _, h, _⟩ := nextTimes_seeded zeroWords length_zeroWords c
    exact ⟨t, h⟩
  · rw [extend_start _ 0 (by decide), extend_start _ 0 (by decide)]
    decide +kernel
  · rw [extend_start _ k h2, extend_start _ k h2, oneWord, List.getD_eq_getElem?_getD, List.getD_eq_getElem?_getD,
      List.getElem?_set_ne (by omega)]

/-- TemperIsBijective: the smallest shift, and one that shifts everything out. -/
theorem test_witness_TemperIsBijective : (1 : Nat) ≤ 1 ∧ (1 : Nat) ≤ 32 := ⟨by decide, by decide⟩

/-- NextStreamAfterSeeding: after SEED, and after SEEDA; the first NEXT, and those around a twist. -/
theorem test_witness_NextStreamAfterSeeding :
    (∃ s t x, s = pendingIn .seed State.reset ∧ s.busy = true ∧ exec .seed s = .next t ∧
      (∀ k, k < 624 → x k = (initInt s.config.intSeedAlg s.seedLo).getD k 0) ∧ IsTwistSequence x) ∧
    (∃ s t x key, s = pendingIn .seeda (keyed 1 1) ∧ s.busy = true ∧ exec .seeda s = .next t ∧
      keyOperand s = .ok key ∧ (∀ k, k < 624 → x k = (initArray key).getD k 0) ∧ IsTwistSequence x) ∧
    1 ≤ 1 ∧ 1 ≤ 624 ∧ 1 ≤ 625 := by
  refine ⟨⟨_, _, extend _, rfl, rfl, seed_completes rfl, extend_start _, extend_isTwistSequence _⟩, ?_, by decide⟩
  obtain ⟨t, h⟩ := seeda_completes_keyed
  exact ⟨_, t, extend _, [0], rfl, rfl, h, keyOperand_keyed, extend_start _, extend_isTwistSequence _⟩

/-- NextCountIsObservable: no NEXT, one, and the largest number of the bound. -/
theorem test_witness_NextCountIsObservable :
    ∀ c, c = 0 ∨ c = 1 ∨ c = 624 * (2 ^ 32 - 1) → ∃ u, JustSeeded zeroWords (seededWith zeroWords) ∧
      nextTimes c (seededWith zeroWords) = .next u ∧ c ≤ 624 * (2 ^ 32 - 1) := fun c h => by
  obtain ⟨t, _, e, _⟩ := nextTimes_seeded zeroWords length_zeroWords c
  exact ⟨t, justSeeded_zero, e, by omega⟩

/-- BusErrorsExactly: offsets on both sides of every border. -/
theorem test_witness_BusErrorsExactly :
    0x3FFF < 0x4000 ∧ (¬ reservedOffset hw 0x028 ∧ readOnlyOffset 0x028) ∧ (reservedOffset hw 0x02C ∧ ¬ readOnlyOffset 0x02C) ∧
    reservedOffset hw 0xFFC ∧ ¬ reservedOffset hw 0x1000 ∧ (¬ reservedOffset hw 0x19BC ∧ ¬ readOnlyOffset 0x19BC) ∧
    reservedOffset hw 0x19C0 ∧ reservedOffset hw 0x1FFC ∧ (¬ reservedOffset hw 0x2000 ∧ readOnlyOffset 0x2000) ∧
    (¬ reservedOffset hw 0x29BC ∧ readOnlyOffset 0x29BC) ∧ (reservedOffset hw 0x29C0 ∧ ¬ readOnlyOffset 0x29C0) ∧
    reservedOffset hw 0x3FFC ∧ ¬ readOnlyOffset 0x010 ∧ readOnlyOffset 0x004 ∧ readOnlyOffset 0x014 := by
  refine ⟨?_, ⟨?_, ?_⟩, ⟨?_, ?_⟩, ?_, ?_, ⟨?_, ?_⟩, ?_, ?_, ⟨?_, ?_⟩, ⟨?_, ?_⟩, ⟨?_, ?_⟩, ?_, ?_, ?_, ?_⟩ <;> decide

/-- RegisterReads and ClrerrClearsError: both values of BUSY; each open register. -/
theorem test_witness_RegisterReads :
    State.reset.busy = false ∧ (pendingIn .seed State.reset).busy = true ∧ 0x020 ∈ [0x014, 0x018, 0x01C, 0x020] :=
  ⟨rfl, rfl, by decide⟩

/-- StatusFields: a read at reset, and one while a command is pending. -/
theorem test_witness_StatusFields :
    (∃ w t, hostRead .w32 0x004 State.reset = .next (w, t) ∧ State.reset.busy = false) ∧
    ∃ w t, hostRead .w32 0x004 (pendingIn .seed State.reset) = .next (w, t) ∧ (pendingIn .seed State.reset).busy = true :=
  ⟨⟨_, _, rfl, rfl⟩, ⟨_, _, rfl, rfl⟩⟩

/-- KeyWindowAccesses: word 0 and word 623, written and not, and words 624 and 1023. -/
theorem test_witness_KeyWindowAccesses :
    State.reset.busy = false ∧ (pendingIn .seed State.reset).busy = true ∧ keyWord State.reset 0 = none ∧
    keyWord State.reset 623 = none ∧ keyWord (keyed 624 0) 0 = some 0 ∧ keyWord (keyed 624 0) 623 = some 0 ∧
    ¬ 624 < 624 ∧ 624 ≤ 1023 :=
  ⟨rfl, rfl, rfl, rfl, keyWord_keyed 624 0 0, keyWord_keyed 624 0 623, by decide, by decide⟩

/-- StateWindowAccesses: word 0 and word 623, written and not, and the first offset after them. -/
theorem test_witness_StateWindowAccesses :
    State.reset.busy = false ∧ (pendingIn .seed State.reset).busy = true ∧ mtWord State.reset 0 = none ∧
    mtWord State.reset 623 = none ∧ (seededWith zeroWords).mt[0]? = some (some 0) ∧
    (seededWith zeroWords).mt[623]? = some (some 0) ∧ 0x2000 + 4 * 623 < 0x29C0 ∧ 0x29C0 ≤ 0x29C0 ∧ 0x29C0 ≤ 0x2FFF := by
  decide +kernel

/-- AccessSideEffects: a read, the operand offsets, and two NEXT commands. -/
theorem test_witness_AccessSideEffects :
    (∃ v t, hostRead .w32 0x014 (pendingIn .seed State.reset) = .next (v, t)) ∧ State.reset.busy = false ∧
    (commandOrOperandOffset hw 0x008 ∧ 0x008 ≠ 0x000) ∧ commandOrOperandOffset hw 0x19BC ∧
    ∃ t u, runCommand .next (seededWith zeroWords) = .next t ∧ runCommand .next t = .next u ∧
      (seededWith zeroWords).cursor.toNat ≤ 624 := by
  refine ⟨⟨_, _, rfl⟩, rfl, by decide, by decide, ?_⟩
  obtain ⟨u, _, h, _⟩ := nextTimes_seeded zeroWords length_zeroWords 2
  simp only [nextTimes, andThen_next, andThen_eq_next] at h
  obtain ⟨t, h1, h2⟩ := h
  exact ⟨t, u, h1, h2, by decide⟩

/-- OperandWrites. -/
theorem test_witness_OperandWrites : State.reset.busy = false := rfl

/-- WindowStandsAtBase: the first and the last byte of the window, and the first after it. -/
theorem test_witness_WindowStandsAtBase :
    (0 < 0x4000 ∧ 0x8000 = base 2 + 0) ∧ (0x3FFF < 0x4000 ∧ 0xBFFF = base 2 + 0x3FFF) ∧ base 2 + 0x4000 ≤ 0xC000 ∧
    0x7FFF < base 2 := by decide

/-- ResetInputResetsBlock, ResetLeavesHost: reset while a command is pending. -/
theorem test_witness_ResetInputResetsBlock :
    nextMove { pendingIn .next (seededWith zeroWords) with sched := [.reset] } = .reset ∧
    ∃ t, step { pendingIn .next (seededWith zeroWords) with sched := [.reset] } = .next t := ⟨rfl, _, rfl⟩

/-- StepKeepsInvariant: a step of the Engine from a state that meets the invariant. -/
theorem test_witness_StepKeepsInvariant :
    Inv State.reset ∧ ∃ t, Inv (pendingIn .next (seededWith zeroWords)) ∧
      step (pendingIn .next (seededWith zeroWords)) = .next t := by
  obtain ⟨t, _, h, _⟩ := next_completes_written
    (s := pendingIn .next (seededWith zeroWords)) rfl rfl length_zeroWords (by decide)
  exact ⟨reset_inv, t, seeded_inv.2, h⟩

/-- InternalFaultsUnreachable: a state that a program reaches, with a command pending. -/
theorem test_witness_InternalFaultsUnreachable :
    ∃ s, Reachable s ∧ s.busy = true :=
  ⟨_, .step (.start hw [.wr .w32 0x000 1] [] rfl) rfl, rfl⟩

/-- UnorderedCommandCompletes: CLRERR pending, and SEEDA pending with its key written. -/
theorem test_witness_UnorderedCommandCompletes :
    (Inv (pendingIn .clrerr State.reset) ∧ (pendingIn .clrerr State.reset).sched = []) ∧
    (Inv (pendingIn .seeda (keyed 1 1)) ∧ (pendingIn .seeda (keyed 1 1)).sched = [] ∧
      ∀ j, j < (pendingIn .seeda (keyed 1 1)).keyLen.toNat → keyWord (pendingIn .seeda (keyed 1 1)) j ≠ none) := by
  refine ⟨⟨?_, rfl⟩, ?_, rfl, fun j h => ?_⟩
  · constructor <;> simp [pendingIn]
  · constructor <;> simp [pendingIn, keyed, zeroCells, Memory.wf]
  · rw [show keyWord (pendingIn .seeda (keyed 1 1)) j = _ from keyWord_keyed 1 1 j, if_pos (show j < 1 from h)]
    simp

/-- BusyHazardHasTwoOutcomes. -/
theorem test_witness_BusyHazardHasTwoOutcomes :
    let s := withProg [.wr .w32 0x000 3] (pendingIn .next (seededWith zeroWords))
    s.busy = true ∧ s.pending = some .next ∧ s.seeded = true ∧ s.mt = zeroWords.map some ∧ zeroWords.length = 624 ∧
    s.prog[s.pos]? = some (.wr .w32 0x000 3) := ⟨rfl, rfl, rfl, rfl, length_zeroWords, rfl⟩

/-- PseudoInstructionsExpand: the least and the greatest seed; a key of one word and of 624, at the largest value. -/
theorem test_witness_PseudoInstructionsExpand :
    (0 < 2 ^ 64 ∧ 2 ^ 64 - 1 < 2 ^ 64) ∧
    (1 ≤ [2 ^ 32 - 1].length ∧ [2 ^ 32 - 1].length ≤ hw.keyMax ∧ ∀ k ∈ [2 ^ 32 - 1], k < 2 ^ 32) ∧
    (1 ≤ (List.replicate 624 0).length ∧ (List.replicate 624 0).length ≤ hw.keyMax ∧
      ∀ k ∈ List.replicate 624 0, k < 2 ^ 32) := by
  refine ⟨by decide, by decide, ?_, ?_, fun k h => ?_⟩
  · rw [List.length_replicate]; decide
  · rw [List.length_replicate]; decide
  · rw [(List.mem_replicate.1 h).2]; decide

/-- PseudoInstructionsExpand: a `repeat` with a body and a program after it. -/
theorem test_witness_PseudoInstructionsExpand_repeat :
    expand hw (.line none .chkerr .done) = .ok [.rd 0x004] ∧ expand hw .done = .ok [] := ⟨rfl, rfl⟩

/-- LocationsAssemble: the least and the greatest value, the last key and state words, and a program with a branch
forward to a label that stands once. -/
theorem test_witness_LocationsAssemble :
    (0 < 2 ^ 32 ∧ 2 ^ 32 - 1 < 2 ^ 32 ∧ 0 < hw.keyMax ∧ 623 < hw.keyMax ∧ 623 ≤ 623) ∧
    expand hw (.line none (.bbusy "end") (.line none .wait (.line (some "end") .chkerr .done))) =
      .ok [.bbusy "end", .rd 0x004, .bbusyBack, .label "end", .rd 0x004] ∧
    assemble hw (.line none (.bbusy "end") (.line none .wait (.line (some "end") .chkerr .done))) =
      .ok [.bbusy 3, .rd .w32 0x004, .bbusy 1, .rd .w32 0x004] ∧
    (Item.label "end" ∉ [.bbusy "end", .rd 0x004, .bbusyBack] ∧ Item.label "end" ∉ [.rd 0x004]) ∧
    0 < statementCount [.rd 0x004] := ⟨by decide, rfl, rfl, by decide, by decide⟩

/-- AssemblerRefusals: each condition at its border, and a program that is refused. -/
theorem test_witness_AssemblerRefusals :
    2 ^ 32 ≤ 2 ^ 32 ∧ (∃ k ∈ [2 ^ 32], 2 ^ 32 ≤ k) ∧
    "cmd" ∉ ["CMD", "STATUS", "SEED_LO", "SEED_HI", "KEYLEN", "OUT", "ORIG_SEED_LO", "ORIG_SEED_HI", "TWISTS", "ID",
      "KEYMAX"] ∧
    "" ∉ ["SEED", "SEEDA", "NEXT", "CLRERR"] ∧ hw.keyMax ≤ 624 ∧ 623 < 624 ∧ ([] : List Nat).length = 0 ∧
    hw.keyMax < (List.replicate 625 0).length ∧ expand hw (.line none (.cmd "") .done) = .error .unknownName := by
  refine ⟨by decide, ⟨_, by simp, Nat.le_refl _⟩, by decide, by decide, by decide, by decide, rfl, ?_, rfl⟩
  rw [List.length_replicate]
  decide

/-- BranchTargetsInProgram. -/
theorem test_witness_BranchTargetsInProgram :
    assemble hw (.line none .wait .done) = .ok [.rd .w32 0x004, .bbusy 0] ∧
    .bbusy 0 ∈ [.rd .w32 0x004, Stmt.bbusy 0] := ⟨rfl, by decide⟩

/-- ConfigurationIsFixed. -/
theorem test_witness_ConfigurationIsFixed : ∃ t, step (pendingIn .clrerr State.reset) = .next t := ⟨_, rfl⟩

/-- NextF64TakesOneWord: a run that ends, on an idle block, refused; and with another command pending. -/
theorem test_witness_NextF64TakesOneWord :
    (∀ m ∈ State.reset.sched, m ≠ .reset) ∧ (∃ t v, nextF64 4 State.reset = .next (some (v, t))) ∧
    State.reset.busy = false ∧
    (∃ t v, nextF64 6 (pendingIn .clrerr State.reset) = .next (some (v, t))) ∧
    (pendingIn .clrerr State.reset).busy = true ∧ (pendingIn .clrerr State.reset).pending = some .clrerr :=
  ⟨by simp, ⟨_, _, rfl⟩, rfl, ⟨_, _, rfl⟩, rfl, rfl⟩

/-- NextF64Ends: NEXT refused, accepted, and faulting (in a state that no run reaches). -/
theorem test_witness_NextF64Ends :
    State.reset.busy = false ∧ State.reset.sched = [] ∧ (∃ u, runCommand .next State.reset = .next u) ∧
    (∃ u, runCommand .next (seededWith zeroWords) = .next u) ∧
    ∃ e, runCommand .next { State.reset with seeded := true } = .fault e := by
  refine ⟨rfl, rfl, ⟨_, rfl⟩, ?_, ?_⟩
  · obtain ⟨u, _, h, _⟩ := nextTimes_seeded zeroWords length_zeroWords 1
    exact ⟨u, by simpa [nextTimes] using h⟩
  · have h : faultOf (runCommand .next { State.reset with seeded := true }) = some .unwrittenStateUse := by decide +kernel
    unfold faultOf at h
    split at h
    · simp at h
    · rename_i e he
      exact ⟨e, he⟩
    · simp at h

end Sys2Proof.Tests
end

/-! ## The configuration is fixed (00_scope.md R7): one lemma per command, access and move, from what each can do -/

namespace Sys2Proof.Machine

@[simp] theorem performSeed_config (s : State) : (performSeed s).config = s.config := by simp [performSeed]

theorem performNext_keeps_config {s t : State} (h : performNext s = .next t) : t.config = s.config := by
  obtain ⟨_, _, _, rfl⟩ | ⟨_, _, _, rfl⟩ := performNext_cases h
  · exact State.extracted_config _ _
  · simp

theorem execSeed_keeps_config {s t : State} (h : execSeed s = .next t) : t.config = s.config := by
  obtain ⟨_, rfl⟩ | ⟨_, rfl⟩ := execSeed_cases h
  · exact State.accept_config _ _
  · simp

theorem execSeeda_keeps_config {s t : State} (h : execSeeda s = .next t) : t.config = s.config := by
  obtain ⟨_, _, rfl⟩ | ⟨_, _, rfl⟩ | ⟨_, _, _, _, rfl⟩ := execSeeda_cases h
  · exact State.accept_config _ _
  · exact State.seterr_config _ _
  · simp

theorem execNext_keeps_config {s t : State} (h : execNext s = .next t) : t.config = s.config := by
  obtain ⟨_, _, rfl⟩ | ⟨_, _, rfl⟩ | ⟨_, u, hu, rfl⟩ := execNext_cases h
  · exact State.accept_config _ _
  · exact State.seterr_config _ _
  · exact (State.complete_config u).trans (performNext_keeps_config hu)

theorem execClrerr_keeps_config {s t : State} (h : execClrerr s = .next t) : t.config = s.config := by
  obtain ⟨_, rfl⟩ | ⟨_, rfl⟩ := execClrerr_cases h
  · exact State.accept_config _ _
  · simp

/-- Both parts of a command, issue and completion, leave the configuration. -/
theorem exec_keeps_config {i : Instr} {s t : State} (h : exec i s = .next t) : t.config = s.config := by
  cases i with
  | seed => exact execSeed_keeps_config h
  | seeda => exact execSeeda_keeps_config h
  | next => exact execNext_keeps_config h
  | clrerr => exact execClrerr_keeps_config h

theorem hostRead_keeps_config {w : Width} {off : Nat} {s t : State} {v : Word} (h : hostRead w off s = .next (v, t)) :
    t.config = s.config := by
  obtain rfl | ⟨_, rfl⟩ := hostRead_cases h
  · rfl
  · exact State.tick_config s

theorem hostWrite_keeps_config {w : Width} {off : Nat} {v : Word} {s t : State} (h : hostWrite w off v s = .next t) :
    t.config = s.config := by
  obtain ⟨_, rfl⟩ | ⟨_, _, _, _, rfl⟩ | ⟨_, rfl | rfl | rfl | ⟨_, _, rfl⟩⟩ := hostWrite_cases h
  · exact State.seterr_config _ _
  · exact State.accept_config _ _
  · exact State.setSeedLo_config _ _
  · exact State.setSeedHi_config _ _
  · exact State.setKeyLen_config _ _
  · exact State.setKey_config _ _ _

theorem hostMove_keeps_config {s t : State} (h : hostMove s = .next t) : t.config = s.config := by
  obtain ⟨_, rfl⟩ | ⟨_, off, v, u, _, hw, rfl⟩ | ⟨_, off, v, u, _, hr, rfl⟩ | ⟨_, _, rfl⟩ := hostMove_cases h
  · rfl
  · exact (State.wrote_config off v u).trans (hostWrite_keeps_config hw)
  · exact (State.didRead_config off v u).trans (hostRead_keeps_config hr)
  · exact State.goTo_config _ s

theorem engineMove_keeps_config {s t : State} (h : engineMove s = .next t) : t.config = s.config := by
  obtain ⟨_, rfl⟩ | ⟨_, _, _, hi⟩ := engineMove_cases h
  · rfl
  · exact exec_keeps_config hi

/-- A step of the Host, of the Engine or of the reset input leaves the configuration. -/
theorem step_keeps_config {s t : State} (h : step s = .next t) : t.config = s.config := by
  obtain ⟨_, hm⟩ | ⟨_, hm⟩ | ⟨_, rfl⟩ := step_cases h
  · simpa using hostMove_keeps_config hm
  · simpa using engineMove_keeps_config hm
  · simp

/-- Settles O56: each move leaves the configuration, the reset input included (log entry 13); the reset values are
those of `hw`. -/
theorem configurationIsFixed : Obligations.ConfigurationIsFixed := by
  unfold Obligations.ConfigurationIsFixed
  exact ⟨fun _ _ => step_keeps_config, rfl, rfl, rfl⟩

end Sys2Proof.Machine

/-! ## What a command, a move of the Host and a step can do and leave (10_state.md): the facts behind the invariant
and the frames -/

namespace Sys2Proof.Machine

/-- What a completion can do (30_encoding.md R90): load a seeded array, extract one word with or without a twist before
it, or clear ERR. -/
theorem exec_busy_cases {i : Instr} {s t : State} (hb : s.busy = true) (h : exec i s = .next t) :
    ((i = .seed ∨ i = .seeda) ∧ ∃ A o b, A.length = 624 ∧ t = (s.loadSeeded A o b).complete) ∨
    (i = .next ∧ s.cursor.toNat < 624 ∧ ∃ w, t = (s.extracted w).complete) ∨
    (i = .next ∧ 624 ≤ s.cursor.toNat ∧ ∃ A w, mtArray s = some A ∧
      t = ((s.afterTwist (twist A)).extracted w).complete) ∨
    (i = .clrerr ∧ t = s.clearErr.complete) := by
  cases i with
  | seed =>
    obtain ⟨hi, _⟩ | ⟨_, rfl⟩ := execSeed_cases h
    · simp [hb] at hi
    · exact .inl ⟨.inl rfl, _, _, _, length_initInt _ _, rfl⟩
  | seeda =>
    obtain ⟨hi, _⟩ | ⟨hi, _⟩ | ⟨_, _, key, _, rfl⟩ := execSeeda_cases h
    · simp [hb] at hi
    · simp [hb] at hi
    · exact .inl ⟨.inr rfl, _, _, _, length_initArray key, rfl⟩
  | next =>
    obtain ⟨hi, _⟩ | ⟨hi, _⟩ | ⟨_, u, hu, rfl⟩ := execNext_cases h
    · simp [hb] at hi
    · simp [hb] at hi
    · obtain ⟨hc, _, _, rfl⟩ | ⟨hc, A, hA, rfl⟩ := performNext_cases hu
      · exact .inr (.inl ⟨rfl, hc, _, rfl⟩)
      · exact .inr (.inr (.inl ⟨rfl, hc, A, _, hA, rfl⟩))
  | clrerr =>
    obtain ⟨hi, _⟩ | ⟨_, rfl⟩ := execClrerr_cases h
    · simp [hb] at hi
    · exact .inr (.inr (.inr ⟨rfl, rfl⟩))

/-- What was checked of a command that is accepted (30_encoding.md R89). -/
theorem exec_accept_checks {i : Instr} {s : State} (hb : s.busy = false) (h : exec i s = .next (s.accept i)) :
    (i = .next → s.seeded = true) ∧ (i = .seeda → keyLenOk s.config s.keyLen = true) := by
  refine ⟨?_, ?_⟩
  · rintro rfl
    obtain ⟨_, hs, _⟩ | ⟨_, _, e⟩ | ⟨hi, _⟩ := execNext_cases h
    · exact hs
    · simpa [hb] using congrArg State.busy e
    · simp [hb] at hi
  · rintro rfl
    obtain ⟨_, hk, _⟩ | ⟨_, _, e⟩ | ⟨hi, _⟩ := execSeeda_cases h
    · exact hk
    · simpa [hb] using congrArg State.busy e
    · simp [hb] at hi

/-! ### The invariant, kept by every update of the state -/

theorem Inv.seterr {s : State} (h : Inv s) (c : ErrCode) : Inv (s.seterr c) := { h with }

theorem Inv.tick {s : State} (h : Inv s) : Inv s.tick := { h with }

theorem Inv.wrote {s : State} (h : Inv s) (off : Nat) (v : Word) : Inv (s.wrote off v) := { h with }

theorem Inv.didRead {s : State} (h : Inv s) (off : Nat) (v : Word) : Inv (s.didRead off v) := { h with }

theorem Inv.goTo {s : State} (h : Inv s) (p : Nat) : Inv (s.goTo p) := { h with }

theorem Inv.withSched {s : State} (h : Inv s) (l : List Move) : Inv (s.withSched l) := { h with }

theorem Inv.clearErr {s : State} (h : Inv s) : Inv s.clearErr := { h with }

theorem Inv.setSeedLo {s : State} (h : Inv s) (v : Word) : Inv (s.setSeedLo v) := { h with }

theorem Inv.setSeedHi {s : State} (h : Inv s) (v : Word) : Inv (s.setSeedHi v) := { h with }

theorem Inv.pending_eq_none {s : State} (h : Inv s) (hb : s.busy = false) : s.pending = none := by
  simpa [hb] using h.busyPending

/-- KEYLEN may change only while no SEEDA is pending that has been checked against it. -/
theorem Inv.setKeyLen {s : State} (h : Inv s) (hb : s.busy = false) (v : Word) : Inv (s.setKeyLen v) :=
  { h with seedaLength := by simp [h.pending_eq_none hb] }

/-- A key word below KEY_MAX is written on four bytes of the key window (20_memory.md R56). -/
theorem Inv.setKey {s : State} (h : Inv s) {i : Nat} (hi : i < s.config.keyMax) (v : Word) : Inv (s.setKey i v) :=
  { h with
    keyCanonical := Memory.wf_writeWord _ _ h.keyCanonical
    keyInWindow := by
      intro c hc
      obtain ⟨h1, h2⟩ | hc := Memory.mem_writeWord hc
      · unfold keyOffset at h1 h2
        simp only [State.setKey_config]
        omega
      · exact h.keyInWindow c hc }

/-- Acceptance keeps the invariant where the command's own checks were passed (30_encoding.md R89). -/
theorem Inv.accept {s : State} (h : Inv s) {i : Instr} (hn : i = .next → s.seeded = true)
    (hk : i = .seeda → keyLenOk s.config s.keyLen = true) : Inv (s.accept i) :=
  { h with
    busyPending := rfl
    nextSeeded := fun e => hn (by simpa using e)
    seedaLength := fun e => (keyLenOk_iff _ _).1 (hk (by simpa using e)) }

theorem Inv.complete {s : State} (h : Inv s) : Inv s.complete :=
  { h with
    busyPending := rfl
    nextSeeded := by simp
    seedaLength := by simp }

/-- A seeding loads 624 written words and sets SEEDED (41_seeding.md R103, R110). -/
theorem Inv.loadSeeded {s : State} (h : Inv s) {A : List Word} (hA : A.length = 624) (o : DWord) (b : Bool) :
    Inv (s.loadSeeded A o b) :=
  { h with
    mtLength := by simpa using hA
    cursorRange := by simp
    seededWritten := by simp
    unseededBlank := by simp
    nextSeeded := by simp }

/-- Under the invariant a state array whose words are all written is a seeded one. -/
theorem Inv.seeded_of_mtArray {s : State} (h : Inv s) {A : List Word} (hA : mtArray s = some A) : s.seeded = true := by
  obtain ⟨hmt, hl⟩ := (mtArray_eq_some_iff s A).1 hA
  by_contra hs
  have hblank := h.unseededBlank (by simpa using hs)
  obtain ⟨w, hw⟩ := List.exists_mem_of_length_pos (l := A) (by omega)
  simpa using hblank (some w) (by simpa [hmt] using hw)

/-- A twist leaves 624 written words and CURSOR = 0 (42_twist.md R132). -/
theorem Inv.afterTwist {s : State} (h : Inv s) {A : List Word} (hA : A.length = 624) (hs : s.seeded = true) :
    Inv (s.afterTwist A) :=
  { h with
    mtLength := by simpa using hA
    cursorRange := by simp
    seededWritten := by simp
    unseededBlank := by simp [hs] }

/-- An extraction from a CURSOR below 624 advances it to at most 624 (10_state.md R23). -/
theorem Inv.extracted {s : State} (h : Inv s) (hc : s.cursor.toNat < 624) (w : Word) : Inv (s.extracted w) :=
  { h with
    cursorRange := by
      have hone : (1 : BitVec 10).toNat = 1 := rfl
      simp only [State.extracted_cursor, BitVec.toNat_add, hone]
      omega }

/-- Reset restores the invariant from any state; the configuration stays (70_reset_and_hazards.md R230). -/
theorem inv_hardwareReset {s : State} (hc : s.config.wf = true) : Inv s.hardwareReset where
  mtLength := by simp
  cursorRange := by simp
  busyPending := rfl
  seededWritten := by simp
  unseededBlank := by simp
  nextSeeded := by simp
  seedaLength := by simp
  keyCanonical := by simp
  keyInWindow := by simp
  configWf := hc

/-! ### The invariant, kept by every command, move and step -/

/-- Both parts of a command keep the invariant: issue by its checks, completion by what it writes. -/
theorem exec_keeps_inv {i : Instr} {s t : State} (hinv : Inv s) (h : exec i s = .next t) : Inv t := by
  cases hb : s.busy with
  | false =>
    obtain rfl | ⟨c, rfl⟩ := exec_idle_cases hb h
    · obtain ⟨hn, hk⟩ := exec_accept_checks hb h
      exact hinv.accept hn hk
    · exact hinv.seterr c
  | true =>
    obtain ⟨_, A, o, b, hA, rfl⟩ | ⟨_, hc, w, rfl⟩ | ⟨_, _, A, w, hA, rfl⟩ | ⟨_, rfl⟩ := exec_busy_cases hb h
    · exact (hinv.loadSeeded hA o b).complete
    · exact (hinv.extracted hc w).complete
    · have hl : (twist A).length = 624 := by simp [((mtArray_eq_some_iff s A).1 hA).2]
      have htwist := hinv.afterTwist hl (hinv.seeded_of_mtArray hA)
      exact (htwist.extracted (by simp) w).complete
    · exact hinv.clearErr.complete

theorem hostRead_keeps_inv {w : Width} {off : Nat} {v : Word} {s t : State} (hinv : Inv s)
    (h : hostRead w off s = .next (v, t)) : Inv t := by
  obtain rfl | ⟨_, rfl⟩ := hostRead_cases h
  · exact hinv
  · exact hinv.tick

theorem hostWrite_keeps_inv {w : Width} {off : Nat} {v : Word} {s t : State} (hinv : Inv s)
    (h : hostWrite w off v s = .next t) : Inv t := by
  obtain ⟨c, rfl⟩ | ⟨_, i, _, hi, _⟩ | ⟨hb, rfl | rfl | rfl | ⟨i, hi, rfl⟩⟩ := hostWrite_cases h
  · exact hinv.seterr c
  · exact exec_keeps_inv hinv hi
  · exact hinv.setSeedLo v
  · exact hinv.setSeedHi v
  · exact hinv.setKeyLen hb v
  · exact hinv.setKey hi v

theorem hostMove_keeps_inv {s t : State} (hinv : Inv s) (h : hostMove s = .next t) : Inv t := by
  obtain ⟨_, rfl⟩ | ⟨_, off, v, u, _, hw, rfl⟩ | ⟨_, off, v, u, _, hr, rfl⟩ | ⟨_, _, rfl⟩ := hostMove_cases h
  · exact hinv
  · exact (hostWrite_keeps_inv hinv hw).wrote off v
  · exact (hostRead_keeps_inv hinv hr).didRead off v
  · exact hinv.goTo _

theorem engineMove_keeps_inv {s t : State} (hinv : Inv s) (h : engineMove s = .next t) : Inv t := by
  obtain ⟨_, rfl⟩ | ⟨_, _, _, hi⟩ := engineMove_cases h
  · exact hinv
  · exact exec_keeps_inv hinv hi

/-- A step of the Host, of the Engine or of the reset input keeps the invariant. -/
theorem step_keeps_inv {s t : State} (hinv : Inv s) (h : step s = .next t) : Inv t := by
  obtain ⟨_, hm⟩ | ⟨_, hm⟩ | ⟨_, rfl⟩ := step_cases h
  · exact hostMove_keeps_inv (hinv.withSched _) hm
  · exact engineMove_keeps_inv (hinv.withSched _) hm
  · exact inv_hardwareReset hinv.configWf

/-- Settles O47: the invariant is inductive, since every update keeps it under the conditions at which a step makes
the update. -/
theorem stepKeepsInvariant : Obligations.StepKeepsInvariant := by
  unfold Obligations.StepKeepsInvariant
  exact fun _ _ => step_keeps_inv

/-! ### The frames of the commands -/

/-- Settles O18: none of the updates of an issue or of a completion writes an operand, the key RAM or the Host's
data. -/
theorem commandsLeaveOperands : Obligations.CommandsLeaveOperands := by
  unfold Obligations.CommandsLeaveOperands
  intro i s t h
  cases hb : s.busy with
  | false => obtain rfl | ⟨c, rfl⟩ := exec_idle_cases hb h <;> simp
  | true =>
    obtain ⟨_, A, o, b, _, rfl⟩ | ⟨_, _, w, rfl⟩ | ⟨_, _, A, w, _, rfl⟩ | ⟨_, rfl⟩ := exec_busy_cases hb h <;> simp

/-- Settles O19: an issue accepts or records an error; each completion writes the fields of its update alone and then
clears BUSY and PENDING. -/
theorem commandsLeaveGenerator : Obligations.CommandsLeaveGenerator := by
  unfold Obligations.CommandsLeaveGenerator
  intro i s t h
  cases hb : s.busy with
  | false => obtain rfl | ⟨c, rfl⟩ := exec_idle_cases hb h <;> simp
  | true =>
    obtain ⟨rfl | rfl, A, o, b, _, rfl⟩ | ⟨rfl, _, w, rfl⟩ | ⟨rfl, hc, A, w, _, rfl⟩ | ⟨rfl, rfl⟩ :=
      exec_busy_cases hb h
    · simp
    · simp
    · simp
    · simp [Nat.not_lt.2 hc]
    · simp

/-! ### The frame of the Host's moves -/

/-- The generator of t is that of s, ERR aside: the items of 10_state.md R41 that SEED, SEEDA and NEXT write. -/
structure KeepsGenerator (s t : State) : Prop where
  mt : t.mt = s.mt
  cursor : t.cursor = s.cursor
  origSeed : t.origSeed = s.origSeed
  seeded : t.seeded = s.seeded
  src : t.src = s.src
  out : t.out = s.out
  twists : t.twists = s.twists

/-- The pending command of t and its operands are those of s (10_state.md R28; 30_encoding.md R81). -/
structure KeepsCommand (s t : State) : Prop where
  busy : t.busy = s.busy
  pending : t.pending = s.pending
  seedLo : t.seedLo = s.seedLo
  seedHi : t.seedHi = s.seedHi
  keyLen : t.keyLen = s.keyLen
  key : t.key = s.key

theorem hostWrite_keeps_generator {w : Width} {off : Nat} {v : Word} {s t : State}
    (h : hostWrite w off v s = .next t) : KeepsGenerator s t := by
  obtain ⟨_, rfl⟩ | ⟨_, _, _, _, rfl⟩ | ⟨_, rfl | rfl | rfl | ⟨_, _, rfl⟩⟩ := hostWrite_cases h <;> constructor <;> rfl

/-- A write while BUSY = 1 records at most an error (60_exceptions.md R205). -/
theorem hostWrite_keeps_command {w : Width} {off : Nat} {v : Word} {s t : State} (hb : s.busy = true)
    (h : hostWrite w off v s = .next t) : KeepsCommand s t := by
  obtain ⟨_, rfl⟩ | ⟨hi, _⟩ | ⟨hi, _⟩ := hostWrite_cases h
  · constructor <;> rfl
  · simp [hb] at hi
  · simp [hb] at hi

theorem hostMove_keeps_generator {s t : State} (h : hostMove s = .next t) : KeepsGenerator s t := by
  obtain ⟨_, rfl⟩ | ⟨_, _, _, u, _, hw, rfl⟩ | ⟨_, _, _, u, _, hr, rfl⟩ | ⟨_, _, rfl⟩ := hostMove_cases h
  · constructor <;> rfl
  · exact { hostWrite_keeps_generator hw with }
  · obtain rfl | ⟨_, rfl⟩ := hostRead_cases hr <;> constructor <;> rfl
  · constructor <;> rfl

theorem hostMove_keeps_command {s t : State} (hb : s.busy = true) (h : hostMove s = .next t) : KeepsCommand s t := by
  obtain ⟨_, rfl⟩ | ⟨_, _, _, u, _, hw, rfl⟩ | ⟨_, _, _, u, _, hr, rfl⟩ | ⟨_, _, rfl⟩ := hostMove_cases h
  · constructor <;> rfl
  · exact { hostWrite_keeps_command hb hw with }
  · obtain rfl | ⟨_, rfl⟩ := hostRead_cases hr <;> constructor <;> rfl
  · constructor <;> rfl

/-- A step that is the Host's is its move, on a state that differs in the order of moves alone. -/
theorem hostMove_of_step {s t : State} (hm : nextMove s = .host) (h : step s = .next t) :
    hostMove (s.withSched s.sched.tail) = .next t := by
  obtain ⟨_, h⟩ | ⟨he, _⟩ | ⟨hr, _⟩ := step_cases h
  · exact h
  · simp [hm] at he
  · simp [hm] at hr

/-- Settles O20: a write, a read and a branch leave the generator; while BUSY = 1 a write records at most an error. -/
theorem hostMovesLeaveGenerator : Obligations.HostMovesLeaveGenerator := by
  unfold Obligations.HostMovesLeaveGenerator
  intro s t hm h
  have hmove := hostMove_of_step hm h
  obtain ⟨hmt, hcursor, horig, hseeded, hsrc, hout, htwists⟩ := hostMove_keeps_generator hmove
  refine ⟨hmt, hcursor, horig, hseeded, hsrc, hout, htwists, fun hb => ?_⟩
  obtain ⟨hbusy, hpending, hlo, hhi, hlen, hkey⟩ := hostMove_keeps_command (s := s.withSched s.sched.tail) hb hmove
  exact ⟨hbusy.trans hb, hpending, hlo, hhi, hlen, hkey⟩

/-! ### The writers of the state array and of SEEDED -/

/-- A command that changes MT is a seeding or a twisting NEXT, at completion (10_state.md R22). -/
theorem exec_changes_mt {i : Instr} {s t : State} (h : exec i s = .next t) (hne : t.mt ≠ s.mt) :
    s.busy = true ∧ (i = .seed ∨ i = .seeda ∨ (i = .next ∧ 624 ≤ s.cursor.toNat)) := by
  cases hb : s.busy with
  | false => obtain rfl | ⟨_, rfl⟩ := exec_idle_cases hb h <;> exact absurd rfl hne
  | true =>
    obtain ⟨rfl | rfl, _⟩ | ⟨_, _, _, rfl⟩ | ⟨rfl, hc, _⟩ | ⟨_, rfl⟩ := exec_busy_cases hb h
    · simp
    · simp
    · exact absurd rfl hne
    · simp [hc]
    · exact absurd rfl hne

theorem exec_keeps_mt_length {i : Instr} {s t : State} (h : exec i s = .next t) (hl : s.mt.length = 624) :
    t.mt.length = 624 := by
  cases hb : s.busy with
  | false => obtain rfl | ⟨_, rfl⟩ := exec_idle_cases hb h <;> exact hl
  | true =>
    obtain ⟨_, A, _, _, hA, rfl⟩ | ⟨_, _, _, rfl⟩ | ⟨_, _, A, _, hA, rfl⟩ | ⟨_, rfl⟩ := exec_busy_cases hb h
    · simpa using hA
    · exact hl
    · simpa using ((mtArray_eq_some_iff s A).1 hA).2
    · exact hl

/-- A command that changes SEEDED sets it, and is a seeding at completion (10_state.md R25). -/
theorem exec_changes_seeded {i : Instr} {s t : State} (h : exec i s = .next t) (hne : t.seeded ≠ s.seeded) :
    t.seeded = true ∧ s.busy = true ∧ (i = .seed ∨ i = .seeda) := by
  cases hb : s.busy with
  | false => obtain rfl | ⟨_, rfl⟩ := exec_idle_cases hb h <;> exact absurd rfl hne
  | true =>
    obtain ⟨hi, _, _, _, _, rfl⟩ | ⟨_, _, _, rfl⟩ | ⟨_, _, _, _, _, rfl⟩ | ⟨_, rfl⟩ := exec_busy_cases hb h
    · exact ⟨rfl, rfl, hi⟩
    · simp at hne
    · simp at hne
    · simp at hne

/-- What a step can do to the state array and to SEEDED: a reset, the completion of a command, or nothing. -/
theorem step_generator_cases {s t : State} (h : step s = .next t) :
    (nextMove s = .reset ∧ t = (s.withSched s.sched.tail).hardwareReset) ∨
    (nextMove s = .engine ∧ s.busy = true ∧ ∃ i, s.pending = some i ∧
      exec i (s.withSched s.sched.tail) = .next t) ∨
    KeepsGenerator s t := by
  obtain ⟨_, hm⟩ | ⟨he, hm⟩ | hr := step_cases h
  · exact .inr (.inr { hostMove_keeps_generator hm with })
  · obtain ⟨_, rfl⟩ | ⟨hb, i, hi, hx⟩ := engineMove_cases hm
    · exact .inr (.inr ⟨rfl, rfl, rfl, rfl, rfl, rfl, rfl⟩)
    · exact .inr (.inl ⟨he, hb, i, hi, hx⟩)
  · exact .inl hr

/-- Settles O21: of the three things a step can do to the generator, only a reset and a completion write MT, and both
write 624 words. -/
theorem stateArrayWriters : Obligations.StateArrayWriters := by
  unfold Obligations.StateArrayWriters
  intro s t h
  obtain ⟨hr, rfl⟩ | ⟨he, hb, i, hi, hx⟩ | hk := step_generator_cases h
  · exact ⟨fun _ => .inl hr, fun _ => by simp⟩
  · refine ⟨fun hne => .inr ⟨he, hb, ?_⟩, fun hl => exec_keeps_mt_length hx hl⟩
    obtain ⟨_, rfl | rfl | ⟨rfl, hc⟩⟩ := exec_changes_mt hx hne
    · exact .inl hi
    · exact .inr (.inl hi)
    · exact .inr (.inr ⟨hi, hc⟩)
  · exact ⟨fun hne => absurd hk.mt hne, fun hl => by rw [hk.mt, hl]⟩

/-- Settles O22: of the three things a step can do to the generator, only a reset clears SEEDED and only the
completion of a seeding sets it. -/
theorem seededSetAndCleared : Obligations.SeededSetAndCleared := by
  unfold Obligations.SeededSetAndCleared
  intro s t h
  obtain ⟨hr, rfl⟩ | ⟨he, hb, i, hi, hx⟩ | hk := step_generator_cases h
  · exact ⟨fun _ _ => hr, by simp⟩
  · refine ⟨fun hs ht => ?_, fun hs ht => ⟨he, hb, ?_⟩⟩
    · have hset := (exec_changes_seeded hx (by simp [hs, ht])).1
      simp [ht] at hset
    · obtain ⟨_, _, rfl | rfl⟩ := exec_changes_seeded hx (by simp [hs, ht])
      · exact .inl hi
      · exact .inr hi
  · rw [hk.seeded]
    exact ⟨fun hs ht => by simp [hs] at ht, fun hs ht => by simp [hs] at ht⟩

/-! ### STATUS (10_state.md R39) -/

@[simp] theorem getElem_flagWord (b : Bool) (i : Nat) (h : i < 32) : (flagWord b)[i] = (decide (i = 0) && b) := by
  cases b <;> simp [flagWord]

/-- The three flags of STATUS and the reserved bit above them. -/
theorem getLsbD_statusWord_flags (c : BitVec 10) (e : ErrCode) (src seeded busy : Bool) :
    (statusWord c e src seeded busy).getLsbD 0 = busy ∧ (statusWord c e src seeded busy).getLsbD 1 = seeded ∧
    (statusWord c e src seeded busy).getLsbD 2 = src ∧ (statusWord c e src seeded busy).getLsbD 3 = false := by
  simp [statusWord]

/-- A bit above the flags is one of ERR, which stands from bit 4 on, or one of CURSOR, which stands from bit 16 on. -/
theorem getLsbD_statusWord_of_four_le (c : BitVec 10) (e : ErrCode) (src seeded busy : Bool) {i : Nat} (h4 : 4 ≤ i)
    (h32 : i < 32) :
    (statusWord c e src seeded busy).getLsbD i =
      (!decide (i < 16) && c.getLsbD (i - 16) || e.code.getLsbD (i - 4)) := by
  have hsrc : ¬ i - 2 = 0 := by omega
  have hseeded : ¬ i - 1 = 0 := by omega
  have hbusy : ¬ i = 0 := by omega
  simp [statusWord, h32, Nat.not_lt.2 h4, hsrc, hseeded, hbusy]

/-- The field of `n` bits from bit `p` on. -/
theorem extractLsb'_eq_of_getLsbD {w : Word} {p n : Nat} {f : BitVec n}
    (h : ∀ i, i < n → w.getLsbD (p + i) = f.getLsbD i) : w.extractLsb' p n = f := by
  apply BitVec.eq_of_getLsbD_eq
  intro i hi
  rw [BitVec.getLsbD_extractLsb', h i hi, decide_eq_true hi, Bool.true_and]

section
variable (c : BitVec 10) (e : ErrCode) (src seeded busy : Bool)

theorem extract_err_statusWord : (statusWord c e src seeded busy).extractLsb' 4 4 = e.code := by
  refine extractLsb'_eq_of_getLsbD fun i hi => ?_
  rw [getLsbD_statusWord_of_four_le _ _ _ _ _ (by omega) (by omega)]
  simp [show 4 + i < 16 by omega]

theorem extract_reserved_statusWord : (statusWord c e src seeded busy).extractLsb' 8 8 = 0 := by
  refine extractLsb'_eq_of_getLsbD fun i hi => ?_
  rw [getLsbD_statusWord_of_four_le _ _ _ _ _ (by omega) (by omega)]
  simp [show 8 + i < 16 by omega, BitVec.getLsbD_of_ge e.code (8 + i - 4) (by omega)]

theorem extract_cursor_statusWord : (statusWord c e src seeded busy).extractLsb' 16 10 = c := by
  refine extractLsb'_eq_of_getLsbD fun i hi => ?_
  rw [getLsbD_statusWord_of_four_le _ _ _ _ _ (by omega) (by omega)]
  simp [BitVec.getLsbD_of_ge e.code (16 + i - 4) (by omega)]

theorem extract_top_statusWord : (statusWord c e src seeded busy).extractLsb' 26 6 = 0 := by
  refine extractLsb'_eq_of_getLsbD fun i hi => ?_
  rw [getLsbD_statusWord_of_four_le _ _ _ _ _ (by omega) (by omega)]
  simp [BitVec.getLsbD_of_ge c (26 + i - 16) (by omega), BitVec.getLsbD_of_ge e.code (26 + i - 4) (by omega)]

end

theorem hostRead_status (s : State) : hostRead .w32 0x004 s = .next (readStatus s) := rfl

theorem readStatus_idle {s : State} (hb : s.busy = false) :
    readStatus s = (statusWord s.cursor s.err s.src s.seeded false, s) := by
  simp [readStatus, hb]

theorem readStatus_busy {s : State} (hb : s.busy = true) :
    readStatus s = (statusWord (Config.drawCursor s.draws) s.err (Config.drawSrc s.draws) (Config.drawSeeded s.draws)
      true, s.tick) := by
  simp [readStatus, hb]

/-- Settles O38: the fields are read off the word bit by bit; while BUSY = 1 the three draws stand in CURSOR, SRC and
SEEDED alone. -/
theorem statusFields : Obligations.StatusFields := by
  unfold Obligations.StatusFields
  refine ⟨⟨rfl, rfl, rfl, rfl, rfl⟩, fun c e src seeded busy => ?_, fun s t w h => ?_, fun s hb => ?_,
    fun _ _ => rfl, rfl⟩
  · obtain ⟨h0, h1, h2, h3⟩ := getLsbD_statusWord_flags c e src seeded busy
    exact ⟨h0, h1, h2, h3, extract_err_statusWord .., extract_reserved_statusWord .., extract_cursor_statusWord ..,
      extract_top_statusWord ..⟩
  · rw [hostRead_status, Host.Outcome.next.injEq] at h
    cases hb : s.busy with
    | false =>
      obtain ⟨rfl, rfl⟩ := Prod.mk.inj ((readStatus_idle hb).symm.trans h)
      obtain ⟨h0, h1, h2, _⟩ := getLsbD_statusWord_flags s.cursor s.err s.src s.seeded false
      exact ⟨h0, extract_err_statusWord .., fun _ => ⟨extract_cursor_statusWord .., h1, h2⟩⟩
    | true =>
      obtain ⟨rfl, rfl⟩ := Prod.mk.inj ((readStatus_busy hb).symm.trans h)
      exact ⟨(getLsbD_statusWord_flags ..).1, extract_err_statusWord .., by simp⟩
  · exact ⟨_, _, _, by rw [hostRead_status, readStatus_busy hb]; rfl⟩

end Sys2Proof.Machine

/-! ## The register window (20_memory.md): what stands at an offset, and what an access there does -/

namespace Sys2Proof.Machine

theorem checkAccess_aligned {α : Type} {off : Nat} (hoff : off < 0x4000) (h4 : off % 4 = 0) (go : Result α) :
    checkAccess .w32 off go = go := by
  rw [checkAccess, if_pos hoff, if_pos ⟨rfl, h4⟩]

/-- An access of another width, or not aligned, raises BusError whatever stands there (20_memory.md R52). -/
theorem checkAccess_misaligned {α : Type} {w : Width} {off : Nat} (hoff : off < 0x4000)
    (h : ¬(w = .w32 ∧ off % 4 = 0)) (go : Result α) : checkAccess w off go = .fault (.busError off) := by
  rw [checkAccess, if_pos hoff, if_neg h]

/-! ### What stands at an offset (20_memory.md R51) -/

theorem Reg.offset_lt_and_aligned (r : Reg) : r.offset < 0x2C ∧ r.offset % 4 = 0 := by
  cases r <;> decide

@[simp] theorem regAt_offset (r : Reg) : regAt r.offset = some r := by
  cases r <;> rfl

theorem offset_of_regAt {off : Nat} {r : Reg} (h : regAt off = some r) : r.offset = off := by
  unfold regAt at h
  split at h <;> cases h <;> rfl

/-- The register map has no gap (10_state.md R38). -/
theorem exists_reg_offset {off : Nat} (h : off < 0x2C) (h4 : off % 4 = 0) : ∃ r : Reg, r.offset = off := by
  have hmap : ∀ k, k < 11 → (regAt (4 * k)).isSome := by decide
  obtain ⟨r, hr⟩ := Option.isSome_iff_exists.1 (hmap (off / 4) (by omega))
  exact ⟨r, (offset_of_regAt hr).trans (by omega)⟩

theorem regAt_reserved {off : Nat} (h : 0x2C ≤ off) : regAt off = none := by
  cases hr : regAt off with
  | none => rfl
  | some r =>
    have hlt := r.offset_lt_and_aligned.1
    rw [offset_of_regAt hr] at hlt
    omega

theorem target_reg (c : Config) (r : Reg) : target c r.offset = .reg r := by
  have hr := r.offset_lt_and_aligned
  rw [target, if_pos (by omega), regAt_offset]

/-- Nothing stands at a reserved offset (20_memory.md R58). -/
theorem target_reserved {c : Config} {off : Nat} (h4 : off % 4 = 0) (h : reservedOffset c off) :
    target c off = .reserved := by
  unfold target
  obtain ⟨hlo, hhi⟩ | ⟨hlo, hhi⟩ | hlo := h
  · rw [if_pos hhi, regAt_reserved hlo]
  · rw [if_neg (by omega), if_pos hhi, if_neg (by omega)]
  · rw [if_neg (by omega), if_neg (by omega), if_neg (show ¬(off - 0x2000) / 4 < 624 by omega), ite_self]

/-- An aligned offset is a register's, a key word's, a state word's, or reserved (20_memory.md R51). -/
theorem offset_cases (c : Config) {off : Nat} (h4 : off % 4 = 0) :
    (∃ r : Reg, off = r.offset) ∨ (∃ i, i < c.keyMax ∧ i ≤ 1023 ∧ off = 0x1000 + 4 * i) ∨
    (∃ i, i ≤ 623 ∧ off = 0x2000 + 4 * i) ∨ reservedOffset c off := by
  by_cases hreg : off < 0x2C
  · obtain ⟨r, hr⟩ := exists_reg_offset hreg h4
    exact .inl ⟨r, hr.symm⟩
  by_cases hres : reservedOffset c off
  · exact .inr (.inr (.inr hres))
  by_cases hkey : off < 0x2000
  · exact .inr (.inl ⟨(off - 0x1000) / 4, by omega, by omega, by omega⟩)
  · exact .inr (.inr (.inl ⟨(off - 0x2000) / 4, by omega, by omega⟩))

/-- An offset whose write is discarded while BUSY = 1 is CMD's or an operand's (60_exceptions.md R205). -/
theorem commandOrOperandOffset_cases {c : Config} {off : Nat} (h : commandOrOperandOffset c off) :
    off = Reg.offset .cmd ∨ off = Reg.offset .seedLo ∨ off = Reg.offset .seedHi ∨ off = Reg.offset .keyLen ∨
    ∃ i, i < c.keyMax ∧ i ≤ 1023 ∧ off = 0x1000 + 4 * i := by
  obtain hreg | ⟨hlo, hmax, hhi, h4⟩ := h
  · simp only [List.mem_cons, List.not_mem_nil, or_false] at hreg
    obtain rfl | rfl | rfl | rfl := hreg
    · exact .inl rfl
    · exact .inr (.inl rfl)
    · exact .inr (.inr (.inl rfl))
    · exact .inr (.inr (.inr (.inl rfl)))
  · exact .inr (.inr (.inr (.inr ⟨(off - 0x1000) / 4, by omega, by omega, by omega⟩)))

/-! ### An access to each kind of target -/

theorem hostRead_reg (r : Reg) (s : State) : hostRead .w32 r.offset s = .next (readReg r s) := by
  have hr := r.offset_lt_and_aligned
  rw [hostRead, checkAccess_aligned (by omega) hr.2, target_reg]

theorem hostWrite_reg (r : Reg) (v : Word) (s : State) : hostWrite .w32 r.offset v s = writeReg r r.offset v s := by
  have hr := r.offset_lt_and_aligned
  rw [hostWrite, checkAccess_aligned (by omega) hr.2, target_reg]

section
variable {s : State} {i : Nat} (hi : i < s.config.keyMax) (hi' : i ≤ 1023)
include hi hi'

theorem hostRead_key : hostRead .w32 (0x1000 + 4 * i) s = readKey i s := by
  rw [hostRead, checkAccess_aligned (by omega) (by omega), target_key hi hi']

theorem hostWrite_key (v : Word) : hostWrite .w32 (0x1000 + 4 * i) v s = writeOperand (State.setKey i v) s := by
  rw [hostWrite, checkAccess_aligned (by omega) (by omega), target_key hi hi']

end

theorem hostRead_state {i : Nat} (hi : i ≤ 623) (s : State) : hostRead .w32 (0x2000 + 4 * i) s = readState i s := by
  rw [hostRead, checkAccess_aligned (by omega) (by omega), target_state s.config hi]

theorem hostWrite_state {i : Nat} (hi : i ≤ 623) (v : Word) (s : State) :
    hostWrite .w32 (0x2000 + 4 * i) v s = .fault (.busError (0x2000 + 4 * i)) := by
  rw [hostWrite, checkAccess_aligned (by omega) (by omega), target_state s.config hi]

section
variable {w : Width} {off : Nat} {s : State} (hoff : off < 0x4000)
include hoff

theorem hostRead_misaligned (h : ¬(w = .w32 ∧ off % 4 = 0)) : hostRead w off s = .fault (.busError off) :=
  checkAccess_misaligned hoff h _

theorem hostWrite_misaligned (h : ¬(w = .w32 ∧ off % 4 = 0)) (v : Word) :
    hostWrite w off v s = .fault (.busError off) :=
  checkAccess_misaligned hoff h _

/-- A read at a reserved offset raises BusError at every width (20_memory.md R58). -/
theorem hostRead_reserved (h : reservedOffset s.config off) : hostRead w off s = .fault (.busError off) := by
  by_cases ha : w = .w32 ∧ off % 4 = 0
  · obtain ⟨rfl, h4⟩ := ha
    rw [hostRead, checkAccess_aligned hoff h4, target_reserved h4 h]
  · exact hostRead_misaligned hoff ha

/-- A write at a reserved offset raises BusError at every width (20_memory.md R58). -/
theorem hostWrite_reserved (h : reservedOffset s.config off) (v : Word) :
    hostWrite w off v s = .fault (.busError off) := by
  by_cases ha : w = .w32 ∧ off % 4 = 0
  · obtain ⟨rfl, h4⟩ := ha
    rw [hostWrite, checkAccess_aligned hoff h4, target_reserved h4 h]
  · exact hostWrite_misaligned hoff ha v

end

/-! ### What the reads and the writes of a target answer -/

theorem readOpen_idle {s : State} (hb : s.busy = false) (v : Word) : readOpen v s = (v, s) := by
  simp [readOpen, hb]

theorem readOpen_busy {s : State} (hb : s.busy = true) (v : Word) :
    readOpen v s = (Config.drawWord s.draws, s.tick) := by
  simp [readOpen, hb]

theorem readKey_unwritten {s : State} {i : Nat} (h : keyWord s i = none) :
    readKey i s = .fault (.unwrittenKeyRead i) := by
  simp [readKey, h]

theorem readKey_written {s : State} {i : Nat} {u : Word} (h : keyWord s i = some u) : readKey i s = .next (u, s) := by
  simp [readKey, h]

theorem readState_busy {s : State} (hb : s.busy = true) (i : Nat) :
    readState i s = .next (Config.drawWord s.draws, s.tick) := by
  simp [readState, hb]

theorem readState_unwritten {s : State} {i : Nat} (hb : s.busy = false) (h : mtWord s i = none) :
    readState i s = .fault (.unseededStateRead i) := by
  simp [readState, hb, h]

theorem readState_written {s : State} {i : Nat} {u : Word} (hb : s.busy = false) (h : mtWord s i = some u) :
    readState i s = .next (u, s) := by
  simp [readState, hb, h]

theorem writeOperand_idle {s : State} (hb : s.busy = false) (f : State → State) : writeOperand f s = .next (f s) := by
  simp [writeOperand, hb]

theorem writeOperand_busy {s : State} (hb : s.busy = true) (f : State → State) :
    writeOperand f s = .next (s.seterr .busyErr) := by
  simp [writeOperand, hb]

theorem issueCommand_busy {s : State} (hb : s.busy = true) (cw : Word) :
    issueCommand cw s = .next (s.seterr .busyErr) := by
  simp [issueCommand, hb]

/-- The issue of a command never stops the run: it is accepted or refused with an error code (30_encoding.md R89). -/
theorem exec_idle_answers {s : State} (hb : s.busy = false) (i : Instr) : ∃ t, exec i s = .next t := by
  cases i with
  | seed => simp [exec, execSeed, hb]
  | seeda => cases hk : keyLenOk s.config s.keyLen <;> simp [exec, execSeeda, hb, hk]
  | next => cases hs : s.seeded <;> simp [exec, execNext, hb, hs]
  | clrerr => simp [exec, execClrerr, hb]

theorem issueCommand_answers (cw : Word) (s : State) : ∃ t, issueCommand cw s = .next t := by
  cases hb : s.busy with
  | true => exact ⟨_, issueCommand_busy hb cw⟩
  | false =>
    cases hd : decodeWord cw with
    | error e => simp [issueCommand, hb, hd]
    | ok i => simpa [issueCommand, hb, hd] using exec_idle_answers hb i

theorem writeOperand_answers (f : State → State) (s : State) : ∃ t, writeOperand f s = .next t := by
  cases hb : s.busy with
  | true => exact ⟨_, writeOperand_busy hb f⟩
  | false => exact ⟨_, writeOperand_idle hb f⟩

theorem readKey_ne_busError (i off : Nat) (s : State) : readKey i s ≠ .fault (.busError off) := by
  cases hk : keyWord s i with
  | none => simp [readKey_unwritten hk]
  | some u => simp [readKey_written hk]

theorem readState_ne_busError (i off : Nat) (s : State) : readState i s ≠ .fault (.busError off) := by
  cases hb : s.busy with
  | true => simp [readState_busy hb]
  | false =>
    cases hm : mtWord s i with
    | none => simp [readState_unwritten hb hm]
    | some u => simp [readState_written hb hm]

/-! ### BusError (20_memory.md R52, R58; 60_exceptions.md R207) -/

/-- An aligned 32-bit read raises BusError only where nothing stands: an UNWRITTEN word is another fault. -/
theorem hostRead_aligned_busError_iff {off : Nat} (hoff : off < 0x4000) (h4 : off % 4 = 0) (s : State) :
    hostRead .w32 off s = .fault (.busError off) ↔ reservedOffset s.config off := by
  refine ⟨fun h => ?_, hostRead_reserved hoff⟩
  obtain ⟨r, rfl⟩ | ⟨i, hi, hi', rfl⟩ | ⟨i, hi, rfl⟩ | hres := offset_cases s.config h4
  · simp [hostRead_reg] at h
  · exact absurd ((hostRead_key hi hi').symm.trans h) (readKey_ne_busError _ _ _)
  · exact absurd ((hostRead_state hi s).symm.trans h) (readState_ne_busError _ _ _)
  · exact hres

/-- Of the registers, only CMD and the operands are written (20_memory.md R55). -/
theorem writeReg_cases (r : Reg) (v : Word) (s : State) :
    (readOnlyOffset r.offset ∧ writeReg r r.offset v s = .fault (.busError r.offset)) ∨
    (¬readOnlyOffset r.offset ∧ ∃ t, writeReg r r.offset v s = .next t) := by
  cases r with
  | cmd => exact .inr ⟨by decide, issueCommand_answers v s⟩
  | seedLo | seedHi | keyLen => exact .inr ⟨by decide, writeOperand_answers _ s⟩
  | status | out | origSeedLo | origSeedHi | twists | id | keyMax => exact .inl ⟨by decide, rfl⟩

/-- An aligned 32-bit write raises BusError where nothing stands and where what stands is read-only. -/
theorem hostWrite_aligned_busError_iff {off : Nat} (hoff : off < 0x4000) (h4 : off % 4 = 0) (v : Word) (s : State) :
    hostWrite .w32 off v s = .fault (.busError off) ↔ reservedOffset s.config off ∨ readOnlyOffset off := by
  obtain ⟨r, rfl⟩ | ⟨i, hi, hi', rfl⟩ | ⟨i, hi, rfl⟩ | hres := offset_cases s.config h4
  · have hnres : ¬reservedOffset s.config r.offset := by
      have hr := r.offset_lt_and_aligned
      omega
    rw [hostWrite_reg]
    obtain ⟨hro, hf⟩ | ⟨hro, t, ht⟩ := writeReg_cases r v s
    · exact iff_of_true hf (.inr hro)
    · simp only [ht, reduceCtorEq, hnres, hro, or_self]
  · obtain ⟨t, ht⟩ := writeOperand_answers (State.setKey i v) s
    have hnres : ¬reservedOffset s.config (0x1000 + 4 * i) := by omega
    have hnro : ¬readOnlyOffset (0x1000 + 4 * i) := by
      simp only [readOnlyOffset, List.mem_cons, List.not_mem_nil, or_false]
      omega
    simp only [hostWrite_key hi hi', ht, reduceCtorEq, hnres, hnro, or_self]
  · exact iff_of_true (hostWrite_state hi v s) (.inr (.inr (by omega)))
  · exact iff_of_true (hostWrite_reserved hoff hres v) (.inl hres)

/-- Settles O36: the checks of width and alignment come first; past them the four kinds of targets decide. -/
theorem busErrorsExactly : Obligations.BusErrorsExactly := by
  unfold Obligations.BusErrorsExactly
  intro s w off v hoff
  by_cases ha : w = .w32 ∧ off % 4 = 0
  · obtain ⟨rfl, h4⟩ := ha
    rw [hostRead_aligned_busError_iff hoff h4, hostWrite_aligned_busError_iff hoff h4]
    simp [h4]
  · have hor : w ≠ .w32 ∨ off % 4 ≠ 0 := not_and_or.1 ha
    exact ⟨iff_of_true (hostRead_misaligned hoff ha) (or_assoc.1 (.inl hor)),
      iff_of_true (hostWrite_misaligned hoff ha v) (or_assoc.1 (.inl hor))⟩

/-! ### The key window (20_memory.md R56) -/

theorem keyWord_setKey_same (s : State) (i : Nat) (v : Word) : keyWord (s.setKey i v) i = some v :=
  Memory.readWord_writeWord_same s.key (keyOffset i) v

theorem keyWord_setKey_other (s : State) {i j : Nat} (v : Word) (h : j ≠ i) :
    keyWord (s.setKey i v) j = keyWord s j :=
  Memory.readWord_writeWord_other s.key v (by unfold keyOffset; omega)

/-- A write of a word leaves every byte outside it. -/
theorem Memory.readByte_writeWord_outside (m : Memory) {a b : Nat} (v : Word) (h : b < a ∨ a + 4 ≤ b) :
    (m.writeWord a v).readByte b = m.readByte b := by
  rw [readByte_writeWord, if_neg (by omega), if_neg (by omega), if_neg (by omega), if_neg (by omega)]

/-- Settles O39: below KEY_MAX the offset names KEY[i], at or beyond it nothing; the frame is that of a write of one
word of the key RAM. -/
theorem keyWindowAccesses : Obligations.KeyWindowAccesses := by
  unfold Obligations.KeyWindowAccesses
  intro s i v
  refine ⟨fun hi hi' => ⟨fun hb => ?_, fun hb => ?_, fun hu => ?_, fun u hu => ?_⟩, fun hi hi' => ?_⟩
  · refine ⟨s.setKey i v, ?_, rfl, ?_, fun j hj => keyWord_setKey_other s v hj,
      fun a ha => Memory.readByte_writeWord_outside s.key v ha⟩
    · rw [hostWrite_key hi hi', writeOperand_idle hb]
    · rw [hostRead_key (s := s.setKey i v) hi hi', readKey_written (keyWord_setKey_same s i v)]
  · rw [hostWrite_key hi hi', writeOperand_busy hb]
    rfl
  · rw [hostRead_key hi hi', readKey_unwritten hu]
  · rw [hostRead_key hi hi', readKey_written hu]
  · have hres : reservedOffset s.config (0x1000 + 4 * i) := .inr (.inl (by omega))
    exact ⟨hostRead_reserved (by omega) hres, hostWrite_reserved (by omega) hres v⟩

/-! ### The state window (20_memory.md R57) -/

/-- Settles O40: the three reads of a state word, and the reserved offsets beyond word 623. -/
theorem stateWindowAccesses : Obligations.StateWindowAccesses := by
  unfold Obligations.StateWindowAccesses
  intro s i v
  refine ⟨fun hi => ?_, fun w off hlo hhi => ?_⟩
  · rw [hostRead_state hi]
    refine ⟨fun hb => ⟨_, readState_busy hb i⟩, readState_unwritten, fun u hb hu => readState_written hb ?_,
      hostWrite_state hi v s⟩
    rw [mtWord, hu, Option.join_some]
  · have hres : reservedOffset s.config off := .inr (.inr hlo)
    exact ⟨hostRead_reserved (by omega) hres, hostWrite_reserved (by omega) hres v⟩

/-! ### The side effects of an access (20_memory.md R60) -/

/-- A byte that a write would leave as it is stays so after a write at a higher offset, which reaches only cells behind
it. The list need not be in canonical form. -/
theorem Memory.writeByte_fixed_of_lt {m : Memory} {a c : Nat} {v u : Byte} (hac : a < c) (h : m.writeByte a v = m) :
    (m.writeByte c u).writeByte a v = m.writeByte c u := by
  induction m with
  | nil => simp [Memory.writeByte] at h
  | cons d m ih =>
    obtain ⟨b, x⟩ := d
    obtain hlt | rfl | hgt := Nat.lt_trichotomy a b
    · have hlen := congrArg List.length h
      simp [Memory.writeByte, hlt] at hlen
    · obtain rfl : v = x := by simpa [Memory.writeByte] using h
      simp [Memory.writeByte, Nat.not_lt.2 hac.le, hac.ne']
    · have htail : Memory.writeByte m a v = m := by simpa [Memory.writeByte, Nat.not_lt.2 hgt.le, hgt.ne'] using h
      have hbc : b < c := hgt.trans hac
      simp [Memory.writeByte, Nat.not_lt.2 hgt.le, hgt.ne', Nat.not_lt.2 hbc.le, hbc.ne', ih htail]

/-- Writing the same word twice is writing it once: after the four writes each of the four bytes stands. -/
theorem Memory.writeWord_idem (m : Memory) (a : Nat) (v : Word) :
    (m.writeWord a v).writeWord a v = m.writeWord a v := by
  have h0 : (m.writeWord a v).writeByte a (laneOf v 0) = m.writeWord a v :=
    writeByte_fixed_of_lt (by omega) (writeByte_fixed_of_lt (by omega)
      (writeByte_fixed_of_lt (by omega) (writeByte_idem m a _)))
  have h1 : (m.writeWord a v).writeByte (a + 1) (laneOf v 1) = m.writeWord a v :=
    writeByte_fixed_of_lt (by omega) (writeByte_fixed_of_lt (by omega) (writeByte_idem _ _ _))
  have h2 : (m.writeWord a v).writeByte (a + 2) (laneOf v 2) = m.writeWord a v :=
    writeByte_fixed_of_lt (by omega) (writeByte_idem _ _ _)
  have h3 : (m.writeWord a v).writeByte (a + 3) (laneOf v 3) = m.writeWord a v := writeByte_idem _ _ _
  rw [writeWord.eq_def (m.writeWord a v), h0, h1, h2, h3]

/-- The store of an operand write: twice is once, and it leaves what decides whether the same write is served again. -/
structure IsOperandStore (f : State → State) : Prop where
  idem : ∀ s, f (f s) = f s
  busy : ∀ s, (f s).busy = s.busy
  config : ∀ s, (f s).config = s.config

theorem isOperandStore_setKey (i : Nat) (v : Word) : IsOperandStore (State.setKey i v) where
  idem s := by
    have hkey := Memory.writeWord_idem s.key (keyOffset i) v
    simp only [State.setKey, hkey]
  busy _ := rfl
  config _ := rfl

/-- A write at an operand's offset is an operand write of one store (20_memory.md R55, R56). -/
theorem hostWrite_operand {c : Config} {off : Nat} (h : commandOrOperandOffset c off) (h0 : off ≠ 0x000) (v : Word) :
    ∃ f, IsOperandStore f ∧ ∀ s : State, s.config = c → hostWrite .w32 off v s = writeOperand f s := by
  obtain rfl | rfl | rfl | rfl | ⟨i, hi, hi', rfl⟩ := commandOrOperandOffset_cases h
  · exact absurd rfl h0
  · exact ⟨State.setSeedLo v, ⟨fun _ => rfl, fun _ => rfl, fun _ => rfl⟩, fun s _ => hostWrite_reg .seedLo v s⟩
  · exact ⟨State.setSeedHi v, ⟨fun _ => rfl, fun _ => rfl, fun _ => rfl⟩, fun s _ => hostWrite_reg .seedHi v s⟩
  · exact ⟨State.setKeyLen v, ⟨fun _ => rfl, fun _ => rfl, fun _ => rfl⟩, fun s _ => hostWrite_reg .keyLen v s⟩
  · exact ⟨State.setKey i v, isOperandStore_setKey i v, fun s hs => hostWrite_key (hs ▸ hi) hi' v⟩

/-- A write discarded while BUSY = 1 records BUSY_ERR and does nothing else (60_exceptions.md R205). -/
theorem hostWrite_discarded {s : State} (hb : s.busy = true) {off : Nat} (h : commandOrOperandOffset s.config off)
    (v : Word) : hostWrite .w32 off v s = .next (s.seterr .busyErr) := by
  by_cases h0 : off = 0x000
  · subst h0
    exact (hostWrite_reg .cmd v s).trans (issueCommand_busy hb v)
  · obtain ⟨f, _, hf⟩ := hostWrite_operand h h0 v
    exact (hf s rfl).trans (writeOperand_busy hb f)

theorem exec_next_idle_seeded {s : State} (hb : s.busy = false) (hs : s.seeded = true) :
    exec .next s = .next (s.accept .next) := by
  simp [exec, execNext, hb, hs]

theorem State.extracted_cursor_toNat {s : State} (hc : s.cursor.toNat < 624) (w : Word) :
    (s.extracted w).cursor.toNat = s.cursor.toNat + 1 := by
  rw [State.extracted_cursor]
  bv_omega

/-- A NEXT given and completed on a seeded block advances CURSOR, from 0 after a twist (43_extract.md R151), and leaves
the block ready for another. -/
theorem runCommand_next_cursor {s t : State} (hb : s.busy = false) (hs : s.seeded = true)
    (h : runCommand .next s = .next t) :
    t.cursor.toNat = (if s.cursor.toNat < 624 then s.cursor.toNat + 1 else 1) ∧ t.busy = false ∧ t.seeded = true := by
  have hx : exec .next (s.accept .next) = .next t := by
    simpa [runCommand, exec_next_idle_seeded hb hs] using h
  obtain ⟨hi, _⟩ | ⟨_, hlt, w, rfl⟩ | ⟨_, hge, A, w, _, rfl⟩ | ⟨hi, _⟩ := exec_busy_cases rfl hx
  · simp at hi
  · rw [State.accept_cursor] at hlt
    rw [if_pos hlt]
    exact ⟨State.extracted_cursor_toNat (s := s.accept .next) hlt w, rfl, hs⟩
  · rw [State.accept_cursor] at hge
    rw [if_neg (Nat.not_lt.2 hge)]
    exact ⟨by simp, rfl, by simp [hs]⟩
  · simp at hi

/-- The same NEXT moves CURSOR: it advances a CURSOR below 624, and the 1 after a twist is below 624. -/
theorem runCommand_next_cursor_ne {s t : State} (hb : s.busy = false) (hs : s.seeded = true)
    (h : runCommand .next s = .next t) : t.cursor ≠ s.cursor := by
  intro e
  have hcur := (runCommand_next_cursor hb hs h).1
  rw [e] at hcur
  split at hcur <;> omega

/-- Settles O41: a read takes at most a draw, an operand's store is idempotent, and each NEXT moves CURSOR. -/
theorem accessSideEffects : Obligations.AccessSideEffects := by
  unfold Obligations.AccessSideEffects
  refine ⟨fun w off s t v h => ?_, fun off s v hb ho h0 => ?_, fun off s v hb ho => hostWrite_discarded hb ho v,
    fun s t u A hb hs _ _ _ ht hu => ?_⟩
  · obtain rfl | ⟨_, rfl⟩ := hostRead_cases h <;> rfl
  · obtain ⟨f, hstore, hf⟩ := hostWrite_operand ho h0 v
    refine ⟨f s, (hf s rfl).trans (writeOperand_idle hb f), ?_⟩
    rw [hf (f s) (hstore.config s), writeOperand_idle ((hstore.busy s).trans hb), hstore.idem]
  · obtain ⟨_, hbt, hst⟩ := runCommand_next_cursor hb hs ht
    exact ⟨runCommand_next_cursor_ne hb hs ht, runCommand_next_cursor_ne hbt hst hu⟩

/-! ### The registers (20_memory.md R54, R55) -/

/-- Settles O37: the register map names the read; OUT, ORIG_SEED and TWISTS are open, STATUS has its own read. -/
theorem registerReads : Obligations.RegisterReads := by
  unfold Obligations.RegisterReads
  intro s
  refine ⟨hostRead_reg .cmd s, hostRead_reg .seedLo s, hostRead_reg .seedHi s, hostRead_reg .keyLen s,
    hostRead_reg .id s, hostRead_reg .keyMax s, fun hb => ?_, fun hb => ⟨?_, fun off ho => ?_⟩⟩
  · exact ⟨(hostRead_status s).trans (congrArg _ (readStatus_idle hb)),
      (hostRead_reg .out s).trans (congrArg _ (readOpen_idle hb _)),
      (hostRead_reg .origSeedLo s).trans (congrArg _ (readOpen_idle hb _)),
      (hostRead_reg .origSeedHi s).trans (congrArg _ (readOpen_idle hb _)),
      (hostRead_reg .twists s).trans (congrArg _ (readOpen_idle hb _))⟩
  · exact ⟨_, _, _, (hostRead_status s).trans (congrArg _ (readStatus_busy hb))⟩
  · simp only [List.mem_cons, List.not_mem_nil, or_false] at ho
    obtain rfl | rfl | rfl | rfl := ho
    · exact ⟨_, (hostRead_reg .out s).trans (congrArg _ (readOpen_busy hb _))⟩
    · exact ⟨_, (hostRead_reg .origSeedLo s).trans (congrArg _ (readOpen_busy hb _))⟩
    · exact ⟨_, (hostRead_reg .origSeedHi s).trans (congrArg _ (readOpen_busy hb _))⟩
    · exact ⟨_, (hostRead_reg .twists s).trans (congrArg _ (readOpen_busy hb _))⟩

/-- Settles O42: the register map names the operand, and an operand write while BUSY = 0 is its store. -/
theorem operandWrites : Obligations.OperandWrites := by
  unfold Obligations.OperandWrites
  intro s v hb
  exact ⟨(hostWrite_reg .seedLo v s).trans (writeOperand_idle hb _),
    (hostWrite_reg .seedHi v s).trans (writeOperand_idle hb _),
    (hostWrite_reg .keyLen v s).trans (writeOperand_idle hb _)⟩

/-! ### The window on the Host's bus (20_memory.md R50) -/

theorem windowOffset_base_add (page : Nat) {off : Nat} (h : off < 0x4000) :
    windowOffset page (base page + off) = some off := by
  rw [windowOffset, if_pos (by omega), Nat.add_sub_cancel_left]

theorem windowOffset_outside {page a : Nat} (h : a < base page ∨ base page + 0x4000 ≤ a) :
    windowOffset page a = none := by
  rw [windowOffset, if_neg (by omega)]

/-- Settles O43: inside the window the bus access is the access at the offset; outside it the model refuses (log entry
8). -/
theorem windowStandsAtBase : Obligations.WindowStandsAtBase := by
  unfold Obligations.WindowStandsAtBase
  refine fun page => ⟨Nat.mul_mod_right _ _, fun s w v a => ⟨?_, fun ha => ?_⟩⟩
  · rintro off hoff rfl
    rw [busRead, busWrite, windowOffset_base_add page hoff]
    exact ⟨rfl, rfl⟩
  · rw [busRead, busWrite, windowOffset_outside ha]
    exact ⟨rfl, rfl⟩

end Sys2Proof.Machine

/-! ## The command word (30_encoding.md R80 to R84): decoding and encoding -/

namespace Sys2Proof

/-- A word is its two fields, RSV above OP (30_encoding.md R80). -/
theorem rsvField_append_opField (cw : Word) : rsvField cw ++ opField cw = cw :=
  (BitVec.extractLsb'_append_extractLsb'_eq_extractLsb' rfl).trans BitVec.extractLsb'_eq_self

/-- The lanes of the word on four bytes are the bytes (20_memory.md R53). -/
theorem bytesOfWord_wordOfBytes (b0 b1 b2 b3 : Byte) : bytesOfWord (wordOfBytes b0 b1 b2 b3) = [b0, b1, b2, b3] := by
  have h0 : laneOf (wordOfBytes b0 b1 b2 b3) 0 = b0 := BitVec.extractLsb'_append_eq_right
  have h1 : laneOf (wordOfBytes b0 b1 b2 b3) 1 = b1 :=
    (BitVec.extractLsb'_append_eq_of_le (by omega)).trans BitVec.extractLsb'_append_eq_right
  have h2 : laneOf (wordOfBytes b0 b1 b2 b3) 2 = b2 :=
    (BitVec.extractLsb'_append_eq_of_le (by omega)).trans <|
      (BitVec.extractLsb'_append_eq_of_le (by omega)).trans BitVec.extractLsb'_append_eq_right
  have h3 : laneOf (wordOfBytes b0 b1 b2 b3) 3 = b3 :=
    (BitVec.extractLsb'_append_eq_of_le (by omega)).trans <|
      (BitVec.extractLsb'_append_eq_of_le (by omega)).trans BitVec.extractLsb'_append_eq_left
  rw [bytesOfWord, h0, h1, h2, h3]

/-- The decoder reads a command back from its word. -/
theorem decodeWord_encode (i : Instr) : decodeWord (encode i) = .ok i := by
  cases i <;> rfl

/-- A word decodes to a command only if it is that command's word (30_encoding.md R82, R83). -/
theorem decodeWord_eq_ok_iff (cw : Word) (i : Instr) : decodeWord cw = .ok i ↔ cw = encode i := by
  refine ⟨fun h => ?_, fun h => h ▸ decodeWord_encode i⟩
  rw [← rsvField_append_opField cw]
  unfold decodeWord at h
  split_ifs at h with hrsv hseed hseeda hnext hclrerr <;> cases h
  · simp [not_not.1 hrsv, hseed, encode]
  · simp [not_not.1 hrsv, hseeda, encode]
  · simp [not_not.1 hrsv, hnext, encode]
  · simp [not_not.1 hrsv, hclrerr, encode]

/-- A word is illegal exactly for its reserved bits or for its opcode (30_encoding.md R83). -/
theorem decodeWord_isError_iff (cw : Word) :
    (∃ e, decodeWord cw = .error e) ↔ rsvField cw ≠ 0 ∨ opField cw = 0 ∨ 5 ≤ (opField cw).toNat := by
  unfold decodeWord
  by_cases hrsv : rsvField cw = 0
  · rw [if_neg (not_not.2 hrsv)]
    split_ifs with hseed hseeda hnext hclrerr
    · simp [hrsv, hseed]
    · simp [hrsv, hseeda]
    · simp [hrsv, hnext]
    · simp [hrsv, hclrerr]
    · exact iff_of_true ⟨_, rfl⟩ (.inr (by bv_omega))
  · rw [if_pos hrsv]
    exact iff_of_true ⟨_, rfl⟩ (.inl hrsv)

/-- The bytes of a word, followed by any bytes, decode as the word does. -/
theorem decode_bytesOfWord_append (w : Word) (rest : List Byte) :
    decode (bytesOfWord w ++ rest) = (decodeWord w).map (·, rest) := by
  simp only [bytesOfWord, List.cons_append, List.nil_append, decode, Machine.wordOfBytes_lanes]
  cases decodeWord w <;> rfl

/-- Four bytes are the bytes of one word, and fewer decode to nothing. -/
theorem eq_bytesOfWord_append_of_decode {bs : List Byte} {x : Instr × List Byte} (h : decode bs = .ok x) :
    ∃ w rest, bs = bytesOfWord w ++ rest := by
  unfold decode at h
  split at h
  · rename_i b0 b1 b2 b3 rest
    exact ⟨wordOfBytes b0 b1 b2 b3, rest, by rw [bytesOfWord_wordOfBytes]; rfl⟩
  · cases h

/-- Settles O1: four bytes and a word are in one-to-one correspondence, and so are the legal words and the commands. -/
theorem decodeEncodeAgree : Obligations.DecodeEncodeAgree := by
  unfold Obligations.DecodeEncodeAgree
  refine fun i bs rest => ⟨fun h => ?_, fun h => ?_⟩
  · obtain ⟨w, rest', rfl⟩ := eq_bytesOfWord_append_of_decode h
    rw [decode_bytesOfWord_append] at h
    cases hw : decodeWord w with
    | error e => rw [hw] at h; cases h
    | ok j =>
      rw [hw] at h
      cases h
      rw [(decodeWord_eq_ok_iff w i).1 hw, encodeBytes]
  · rw [h, encodeBytes, decode_bytesOfWord_append, decodeWord_encode]
    rfl

/-- Settles O2: each word and each byte sequence is decoded by evaluation. -/
theorem specWordsDecode : Obligations.SpecWordsDecode := by
  unfold Obligations.SpecWordsDecode
  exact ⟨rfl, rfl, rfl, rfl, rfl, rfl, rfl, rfl, rfl⟩

end Sys2Proof

/-! ## The issue of a command (30_encoding.md R89) and the steps (R87, R90) -/

namespace Sys2Proof.Machine

/-! ### The write to CMD -/

theorem hostWrite_cmd (cw : Word) (s : State) : hostWrite .w32 0x000 cw s = issueCommand cw s :=
  hostWrite_reg .cmd cw s

theorem issueCommand_illegal {s : State} (hb : s.busy = false) {cw : Word} (h : ∃ e, decodeWord cw = .error e) :
    issueCommand cw s = .next (s.seterr .illegalCmd) := by
  obtain ⟨e, he⟩ := h
  simp [issueCommand, hb, he]

theorem issueCommand_legal {s : State} (hb : s.busy = false) {cw : Word} {i : Instr} (h : decodeWord cw = .ok i) :
    issueCommand cw s = exec i s := by
  simp [issueCommand, hb, h]

theorem exec_next_idle_unseeded {s : State} (hb : s.busy = false) (hs : s.seeded = false) :
    exec .next s = .next (s.seterr .notSeeded) := by
  simp [exec, execNext, hb, hs]

theorem exec_seeda_idle_refused {s : State} (hb : s.busy = false) (hk : ¬keyLenOk s.config s.keyLen) :
    exec .seeda s = .next (s.seterr .invalidSeed) := by
  simp [exec, execSeeda, hb, hk]

/-- A command whose own checks are passed is accepted (30_encoding.md R89). -/
theorem exec_idle_accepted {s : State} (hb : s.busy = false) {i : Instr} (hn : i = .next → s.seeded = true)
    (hk : i = .seeda → keyLenOk s.config s.keyLen) : exec i s = .next (s.accept i) := by
  cases i with
  | seed => simp [exec, execSeed, hb]
  | seeda => simp [exec, execSeeda, hb, hk rfl]
  | next => exact exec_next_idle_seeded hb (hn rfl)
  | clrerr => simp [exec, execClrerr, hb]

/-- Settles O3: the legal words are the words of the four commands, and a write of another word is refused at
decoding. -/
theorem illegalWordsRefused : Obligations.IllegalWordsRefused := by
  unfold Obligations.IllegalWordsRefused
  refine fun cw => ⟨decodeWord_isError_iff cw, ⟨?_, ?_⟩, fun s hb he => ?_⟩
  · rintro ⟨i, hi⟩
    rw [(decodeWord_eq_ok_iff cw i).1 hi]
    cases i <;> decide
  · rintro (rfl | rfl | rfl | rfl)
    · exact ⟨.seed, rfl⟩
    · exact ⟨.seeda, rfl⟩
    · exact ⟨.next, rfl⟩
    · exact ⟨.clrerr, rfl⟩
  · exact (hostWrite_cmd cw s).trans (issueCommand_illegal hb he)

/-- SEEDA's check fails for KEYLEN = 0 and for KEYLEN > KEY_MAX (60_exceptions.md R202). -/
theorem not_keyLenOk_iff (c : Config) (L : Word) : ¬keyLenOk c L ↔ L = 0 ∨ c.keyMax < L.toNat := by
  have h0 : L = 0 ↔ L.toNat = 0 := BitVec.toNat_inj.symm
  rw [keyLenOk_iff, h0]
  omega

/-- Settles O8: a CMD write is an issue, which checks BUSY, then legality, then what the command itself asks for. -/
theorem issueChecksInOrder : Obligations.IssueChecksInOrder := by
  unfold Obligations.IssueChecksInOrder
  intro s cw refused
  rw [hostWrite_cmd]
  refine ⟨fun hb => issueCommand_busy hb cw, fun hb => ⟨issueCommand_illegal hb, fun hd hs => ?_, fun hd hk => ?_,
    fun i hd hn hk => ?_⟩⟩
  · rw [issueCommand_legal hb hd]
    exact exec_next_idle_unseeded hb hs
  · rw [issueCommand_legal hb hd]
    exact exec_seeda_idle_refused hb ((not_keyLenOk_iff _ _).2 hk)
  · rw [issueCommand_legal hb hd]
    refine exec_idle_accepted hb hn fun hi => not_not.1 fun hbad => ?_
    obtain ⟨h0, hmax⟩ := hk hi
    exact ((not_keyLenOk_iff _ _).1 hbad).elim h0 (Nat.not_lt.2 hmax)

/-! ### A step by who moves -/

/-- The step is the move of whoever moves next, on the state without that move (60_exceptions.md R209). -/
theorem step_eq_runMove {s : State} {m : Move} (h : nextMove s = m) : step s = runMove m (s.withSched s.sched.tail) := by
  rw [step, systemStep, h]

theorem step_host {s : State} (h : nextMove s = .host) : step s = hostMove (s.withSched s.sched.tail) :=
  step_eq_runMove h

theorem step_engine {s : State} (h : nextMove s = .engine) : step s = engineMove (s.withSched s.sched.tail) :=
  step_eq_runMove h

section
variable {s : State} {w : Width} {off : Nat}

theorem hostMove_wr {v : Word} (h : s.prog[s.pos]? = some (.wr w off v)) :
    hostMove s = andThen (hostWrite w off v s) fun t => .next (t.wrote off v) := by
  simp [hostMove, h]

theorem hostMove_rd (h : s.prog[s.pos]? = some (.rd w off)) :
    hostMove s = andThen (hostRead w off s) fun p => .next (p.2.didRead off p.1) := by
  simp [hostMove, h]

theorem hostMove_bbusy {l : Nat} (h : s.prog[s.pos]? = some (.bbusy l)) :
    hostMove s = .next (s.goTo (if s.r.getLsbD 0 then l else s.pos + 1)) := by
  simp [hostMove, h]

theorem hostMove_ended (h : s.prog.length ≤ s.pos) : hostMove s = .next s := by
  simp [hostMove, List.getElem?_eq_none h]

theorem engineMove_busy {i : Instr} (hb : s.busy = true) (hp : s.pending = some i) : engineMove s = exec i s := by
  simp [engineMove, hb, hp]

theorem engineMove_idle (hb : s.busy = false) : engineMove s = .next s := by
  simp [engineMove, hb]

end

/-- Settles O4: the Host's write is an issue, and the issue of a legal word while BUSY = 0 is exec of its command. -/
theorem stepIssuesDecodedCommand : Obligations.StepIssuesDecodedCommand := by
  unfold Obligations.StepIssuesDecodedCommand
  intro s cw i hm hp hb hd
  rw [step_host hm, hostMove_wr (s := s.withSched s.sched.tail) hp, hostWrite_cmd,
    issueCommand_legal (s := s.withSched s.sched.tail) hb hd]
  rfl

/-- Settles O5: the Engine's move, by BUSY. -/
theorem stepCompletesPendingCommand : Obligations.StepCompletesPendingCommand := by
  unfold Obligations.StepCompletesPendingCommand
  intro s hm
  rw [step_engine hm]
  exact ⟨fun i hb hp => engineMove_busy hb hp, fun hb => engineMove_idle hb⟩

theorem tableWord_32 (w : Nat) : tableWord 32 w = BitVec.ofNat 32 w :=
  BitVec.eq_of_toNat_eq (by simp [tableWord])

/-- A row of the opcode table is read by the decoder as its word. -/
theorem decodeWord_of_decodeTableWord {n w : Nat} {i : Instr} (h : decodeTableWord n w = some i) :
    decodeWord (tableWord n w) = .ok i := by
  have hbytes := decode_bytesOfWord_append (tableWord n w) []
  rw [List.append_nil] at hbytes
  rw [decodeTableWord, hbytes] at h
  cases hd : decodeWord (tableWord n w) with
  | error e => simp [hd, Except.map] at h
  | ok j => simpa [hd, Except.map] using h

/-- The statement at the Host's position after a placement is the write of the placed word. -/
theorem placeCommand_prog_getElem? (cw : Word) (s : State) :
    (placeCommand cw s).prog[(placeCommand cw s).pos]? = some (.wr .w32 0x000 cw) := by
  have hlen : (s.prog.take s.pos).length = min s.pos s.prog.length := List.length_take
  rw [placeCommand, ← hlen, List.getElem?_append_right (Nat.le_refl _), Nat.sub_self]
  rfl

/-- Settles O6: the placement makes the Host move next, at the write of the word, with BUSY = 0. -/
theorem placedWordIsIssuedNext : Obligations.PlacedWordIsIssuedNext := by
  unfold Obligations.PlacedWordIsIssuedNext
  intro s w i h
  have hp := placeCommand_prog_getElem? (tableWord 32 w) s
  rw [← tableWord_32]
  exact stepIssuesDecodedCommand (s.withFetchWord 32 w) _ i rfl hp rfl (decodeWord_of_decodeTableWord h)

theorem observation_append (l m : List Txn) : observation (l ++ m) = observation l ++ observation m := by
  induction l with
  | nil => rfl
  | cons x l ih => cases x <;> simp [observation, ih]

/-- Settles O7: the observation keeps what is read, and each statement of the Host is its case of the Host's move. -/
theorem hostStatementsRun : Obligations.HostStatementsRun := by
  unfold Obligations.HostStatementsRun
  refine ⟨fun l off v => by simp [observation_append, observation], fun s hm => ?_⟩
  rw [step_host hm]
  exact ⟨fun _ _ _ hp => hostMove_wr (s := s.withSched s.sched.tail) hp,
    fun _ _ hp => hostMove_rd (s := s.withSched s.sched.tail) hp,
    fun _ hp => hostMove_bbusy (s := s.withSched s.sched.tail) hp,
    fun hp => hostMove_ended (s := s.withSched s.sched.tail) hp⟩

end Sys2Proof.Machine


/-! ## The faults that the issue checks exclude (10_state.md R28; 60_exceptions.md R202, R203; log entry 10) -/

namespace Sys2Proof.Machine

/-! ### The faults of a Host access -/

theorem checkAccess_fault_cases {α : Type} {w : Width} {off : Nat} {go : Result α} {e : Fault}
    (h : checkAccess w off go = .fault e) : e = .busError off ∨ go = .fault e := by
  unfold checkAccess at h
  split_ifs at h
  · exact .inr h
  · cases h
    exact .inl rfl

theorem readKey_fault {i : Nat} {s : State} {e : Fault} (h : readKey i s = .fault e) : e = .unwrittenKeyRead i := by
  cases hk : keyWord s i with
  | none => simpa [readKey_unwritten hk] using h.symm
  | some u => simp [readKey_written hk] at h

theorem readState_fault {i : Nat} {s : State} {e : Fault} (h : readState i s = .fault e) :
    e = .unseededStateRead i := by
  cases hb : s.busy with
  | true => simp [readState_busy hb] at h
  | false =>
    cases hm : mtWord s i with
    | none => simpa [readState_unwritten hb hm] using h.symm
    | some u => simp [readState_written hb hm] at h

/-- The faults of a read (20_memory.md R52, R56, R57, R58). -/
theorem hostRead_fault_cases {w : Width} {off : Nat} {s : State} {e : Fault} (h : hostRead w off s = .fault e) :
    e = .busError off ∨ (∃ i, e = .unwrittenKeyRead i) ∨ ∃ i, e = .unseededStateRead i := by
  obtain rfl | h := checkAccess_fault_cases h
  · exact .inl rfl
  cases ht : target s.config off with
  | reg r => simp [ht] at h
  | key i => exact .inr (.inl ⟨i, readKey_fault (by simpa [ht] using h)⟩)
  | state i => exact .inr (.inr ⟨i, readState_fault (by simpa [ht] using h)⟩)
  | reserved => exact .inl (by simpa [ht] using h.symm)

/-- A register stands only at its own offset (10_state.md R38). -/
theorem offset_of_target_reg {c : Config} {off : Nat} {r : Reg} (h : target c off = .reg r) : r.offset = off := by
  unfold target at h
  split at h
  · split at h
    · rename_i hr
      cases h
      exact offset_of_regAt hr
    · cases h
  · split_ifs at h

/-- The only fault of a write (20_memory.md R52, R58; 60_exceptions.md R207): an issue never faults. -/
theorem hostWrite_fault {w : Width} {off : Nat} {v : Word} {s : State} {e : Fault}
    (h : hostWrite w off v s = .fault e) : e = .busError off := by
  obtain rfl | h := checkAccess_fault_cases h
  · rfl
  cases ht : target s.config off with
  | reg r =>
    obtain rfl := offset_of_target_reg ht
    simp only [ht] at h
    obtain ⟨_, hw⟩ | ⟨_, t, hw⟩ := writeReg_cases r v s
    · simpa [hw] using h.symm
    · simp [hw] at h
  | key i =>
    obtain ⟨t, hw⟩ := writeOperand_answers (State.setKey i v) s
    simp [ht, hw] at h
  | state i => simpa [ht] using h.symm
  | reserved => simpa [ht] using h.symm

theorem hostMove_fault_cases {s : State} {e : Fault} (h : hostMove s = .fault e) :
    (∃ off, e = .busError off) ∨ (∃ i, e = .unwrittenKeyRead i) ∨ ∃ i, e = .unseededStateRead i := by
  unfold hostMove at h
  split at h
  · cases h
  · obtain h | ⟨_, _, h⟩ := andThen_eq_fault.1 h
    · exact .inl ⟨_, hostWrite_fault h⟩
    · cases h
  · obtain h | ⟨_, _, h⟩ := andThen_eq_fault.1 h
    · exact (hostRead_fault_cases h).imp_left fun he => ⟨_, he⟩
    · cases h
  · cases h

/-! ### The faults of a completion -/

/-- Under the invariant a seeded block has all the words of its state array (10_state.md R21). -/
theorem Inv.exists_mtArray {s : State} (h : Inv s) (hs : s.seeded = true) : ∃ A, mtArray s = some A := by
  rw [mtArray, if_pos h.mtLength]
  exact Option.isSome_iff_exists.1 ((allWritten_isSome_iff s.mt).2 (h.seededWritten hs))

theorem extract_answers {s : State} {A : List Word} (hm : s.mt = A.map some) (hc : s.cursor.toNat < A.length) :
    ∃ t, extract s = .next t := by
  simp [extract, mtWord_of_words hm hc]

/-- NEXT completes on every written state array (43_extract.md R151). -/
theorem performNext_answers {s : State} {A : List Word} (hA : mtArray s = some A) : ∃ t, performNext s = .next t := by
  obtain ⟨hm, hl⟩ := (mtArray_eq_some_iff s A).1 hA
  by_cases hc : 624 ≤ s.cursor.toNat
  · have hcur : (s.afterTwist (twist A)).cursor.toNat < (twist A).length := by
      rw [length_twist, hl, State.afterTwist_cursor]
      decide
    obtain ⟨t, ht⟩ := extract_answers (State.afterTwist_mt (twist A) s) hcur
    exact ⟨t, by simp [performNext, hc, hA, ht]⟩
  · obtain ⟨t, ht⟩ := extract_answers hm (by omega)
    exact ⟨t, by simp [performNext, hc, ht]⟩

/-- With a KEYLEN that was checked at issue, SEEDA faults only on an UNWRITTEN key word (41_seeding.md R110). -/
theorem performSeeda_fault {s : State} {e : Fault} (hk : keyLenOk s.config s.keyLen)
    (h : performSeeda s = .fault e) : ∃ j, e = .unwrittenKeyUse j := by
  rw [performSeeda, if_pos hk] at h
  cases hkey : keyOperand s with
  | error j => exact ⟨j, by simpa [hkey] using h.symm⟩
  | ok key => simp [hkey] at h

/-- Under the invariant the pending command completes, or it is a SEEDA that uses an UNWRITTEN key word. -/
theorem exec_pending_fault {i : Instr} {s : State} {e : Fault} (hinv : Inv s) (hb : s.busy = true)
    (hp : s.pending = some i) (h : exec i s = .fault e) : ∃ j, e = .unwrittenKeyUse j := by
  cases i with
  | seed => simp [exec, execSeed, hb] at h
  | clrerr => simp [exec, execClrerr, hb] at h
  | seeda =>
    rw [exec, execSeeda, if_pos hb] at h
    obtain h | ⟨_, _, h⟩ := andThen_eq_fault.1 h
    · exact performSeeda_fault ((keyLenOk_iff _ _).2 (hinv.seedaLength hp)) h
    · cases h
  | next =>
    obtain ⟨A, hA⟩ := hinv.exists_mtArray (hinv.nextSeeded hp)
    obtain ⟨t, ht⟩ := performNext_answers hA
    simp [exec, execNext, hb, ht] at h

theorem engineMove_fault {s : State} {e : Fault} (hinv : Inv s) (h : engineMove s = .fault e) :
    ∃ j, e = .unwrittenKeyUse j := by
  cases hb : s.busy with
  | false => simp [engineMove_idle hb] at h
  | true =>
    obtain ⟨i, hp⟩ := Option.isSome_iff_exists.1 (hinv.busyPending.symm.trans hb)
    exact exec_pending_fault hinv hb hp ((engineMove_busy hb hp).symm.trans h)

/-- Under the invariant a step raises only the faults of 60_exceptions.md R218. -/
theorem step_fault_cases {s : State} {e : Fault} (hinv : Inv s) (h : step s = .fault e) :
    (∃ off, e = .busError off) ∨ (∃ i, e = .unwrittenKeyRead i) ∨ (∃ i, e = .unseededStateRead i) ∨
    ∃ j, e = .unwrittenKeyUse j := by
  cases hm : nextMove s with
  | host =>
    obtain he | he | he := hostMove_fault_cases ((step_host hm).symm.trans h)
    · exact .inl he
    · exact .inr (.inl he)
    · exact .inr (.inr (.inl he))
  | engine => exact .inr (.inr (.inr (engineMove_fault (hinv.withSched _) ((step_engine hm).symm.trans h))))
  | reset => simp [step_eq_runMove hm, runMove] at h

/-! ### The invariant in every run -/

theorem inv_start {c : Config} (p : List Stmt) (l : List Move) (h : c.wf = true) :
    Inv { State.reset with config := c, prog := p, sched := l } :=
  { inv_hardwareReset (s := { State.reset with config := c }) h with }

theorem Reachable.inv {s : State} (h : Reachable s) : Inv s := by
  induction h with
  | start c p l h => exact inv_start p l h
  | step _ e ih => exact step_keeps_inv ih e

/-- Settles O48: every run keeps the invariant, under which a step raises none of the three. -/
theorem internalFaultsUnreachable : Obligations.InternalFaultsUnreachable := by
  unfold Obligations.InternalFaultsUnreachable
  intro s hs
  have hfault := fun e => step_fault_cases (e := e) hs.inv
  exact ⟨fun h => by simpa using hfault _ h, fun h => by simpa using hfault _ h, fun h => by simpa using hfault _ h⟩

end Sys2Proof.Machine


/-! ## The Host's assembler (30_encoding.md R88) -/

namespace Sys2Proof.Machine

/-! ### Chains that may be refused -/

theorem bind_eq_ok_iff {ε α β : Type} {x : Except ε α} {f : α → Except ε β} {b : β} :
    x >>= f = .ok b ↔ ∃ a, x = .ok a ∧ f a = .ok b := by
  cases x <;> simp [bind, Except.bind]

theorem bind_refused_left {ε α β : Type} {x : Except ε α} (h : ∃ e, x = .error e) (f : α → Except ε β) :
    ∃ e, x >>= f = .error e := by
  obtain ⟨e, rfl⟩ := h
  exact ⟨e, rfl⟩

/-- A chain whose second part is always refused is refused. -/
theorem bind_refused_right {ε α β : Type} (x : Except ε α) {f : α → Except ε β} (h : ∀ a, ∃ e, f a = .error e) :
    ∃ e, x >>= f = .error e := by
  cases x with
  | error e => exact ⟨e, rfl⟩
  | ok a => exact h a

/-! ### Labels and their positions -/

@[simp] theorem statementCount_append (a b : List Item) :
    statementCount (a ++ b) = statementCount a + statementCount b := by
  induction a with
  | nil => simp [statementCount]
  | cons x a ih => cases x <;> simp [statementCount, ih] <;> omega

theorem labelsFrom_append (p : Nat) (a b : List Item) :
    labelsFrom p (a ++ b) = labelsFrom p a ++ labelsFrom (p + statementCount a) b := by
  induction a generalizing p with
  | nil => rfl
  | cons x a ih => cases x <;> simp [labelsFrom, statementCount, ih, Nat.add_assoc, Nat.add_comm 1]

theorem positionsOf_append (s t : List (String × Nat)) (L : String) :
    positionsOf (s ++ t) L = positionsOf s L ++ positionsOf t L := by
  simp [positionsOf]

theorem positionsOf_cons (l : String) (p : Nat) (t : List (String × Nat)) (L : String) :
    positionsOf ((l, p) :: t) L = if l = L then p :: positionsOf t L else positionsOf t L := by
  by_cases h : l = L <;> simp [positionsOf, h]

/-- A label that stands nowhere has no position. -/
theorem positionsOf_labelsFrom_of_notMem {L : String} {items : List Item} (h : .label L ∉ items) (p : Nat) :
    positionsOf (labelsFrom p items) L = [] := by
  induction items generalizing p with
  | nil => rfl
  | cons x items ih =>
    obtain ⟨hx, hrest⟩ := not_or.1 (List.mem_cons.not.1 h)
    cases x with
    | label l =>
      have hne : l ≠ L := fun he => hx (he ▸ rfl)
      rw [labelsFrom, positionsOf_cons, if_neg hne, ih hrest]
    | wr | rd | bbusy | bbusyBack => exact ih hrest (p + 1)

/-- A label that stands once has one position: the number of statements before it. -/
theorem positionsOf_labelsFrom_of_standsOnce {L : String} {before after : List Item} (hb : .label L ∉ before)
    (ha : .label L ∉ after) :
    positionsOf (labelsFrom 0 (before ++ .label L :: after)) L = [statementCount before] := by
  rw [labelsFrom_append, positionsOf_append, positionsOf_labelsFrom_of_notMem hb, labelsFrom, positionsOf_cons,
    if_pos rfl, positionsOf_labelsFrom_of_notMem ha, Nat.zero_add, List.nil_append]

/-! ### Resolution, item by item -/

section
variable {table : List (String × Nat)} {len p : Nat}

/-- A branch is resolved exactly if its label has one position, and that of a statement. -/
theorem resolveFrom_bbusy_cons_eq_ok_iff {L : String} {items : List Item} {l : List Stmt} :
    resolveFrom table len p (.bbusy L :: items) = .ok l ↔ ∃ t, positionsOf table L = [t] ∧ t < len ∧
      ∃ b, resolveFrom table len (p + 1) items = .ok b ∧ l = .bbusy t :: b := by
  rw [resolveFrom, bind_eq_ok_iff]
  rcases positionsOf table L with _ | ⟨t, _ | ⟨u, ts⟩⟩
  · simp
  · by_cases hlt : t < len <;> simp [hlt, eq_comm]
  · simp

theorem resolveFrom_bbusy_eq_ok_iff {L : String} {l : List Stmt} :
    resolveFrom table len p [.bbusy L] = .ok l ↔ ∃ t, positionsOf table L = [t] ∧ t < len ∧ l = [.bbusy t] := by
  rw [resolveFrom_bbusy_cons_eq_ok_iff]
  simp [resolveFrom]

/-- The first item is resolved where it stands, and the others behind it. -/
theorem resolveFrom_cons_eq_ok_iff {x : Item} {items : List Item} {l : List Stmt} :
    resolveFrom table len p (x :: items) = .ok l ↔ ∃ a b, resolveFrom table len p [x] = .ok a ∧
      resolveFrom table len (p + statementCount [x]) items = .ok b ∧ l = a ++ b := by
  cases x with
  | label l' => simp [resolveFrom, statementCount]
  | wr off v => simp [resolveFrom, bind_eq_ok_iff, statementCount, @eq_comm _ l]
  | rd off => simp [resolveFrom, bind_eq_ok_iff, statementCount, @eq_comm _ l]
  | bbusyBack => simp [resolveFrom, bind_eq_ok_iff, statementCount, @eq_comm _ l]
  | bbusy L =>
    simp only [resolveFrom_bbusy_eq_ok_iff]
    rw [resolveFrom_bbusy_cons_eq_ok_iff]
    constructor
    · rintro ⟨t, ht, hlt, b, hb, rfl⟩
      exact ⟨[.bbusy t], b, ⟨t, ht, hlt, rfl⟩, hb, rfl⟩
    · rintro ⟨_, b, ⟨t, ht, hlt, rfl⟩, hb, rfl⟩
      exact ⟨t, ht, hlt, b, hb, rfl⟩

/-- The items of two lists are resolved one list behind the other. -/
theorem resolveFrom_append_eq_ok_iff {x y : List Item} {l : List Stmt} :
    resolveFrom table len p (x ++ y) = .ok l ↔ ∃ a b, resolveFrom table len p x = .ok a ∧
      resolveFrom table len (p + statementCount x) y = .ok b ∧ l = a ++ b := by
  induction x generalizing p l with
  | nil => simp [resolveFrom, statementCount, @eq_comm _ l]
  | cons i x ih =>
    have hcount : statementCount (i :: x) = statementCount [i] + statementCount x := statementCount_append [i] x
    rw [List.cons_append, resolveFrom_cons_eq_ok_iff, hcount, ← Nat.add_assoc]
    constructor
    · rintro ⟨a, _, ha, hxy, rfl⟩
      obtain ⟨b, d, hb, hd, rfl⟩ := ih.1 hxy
      exact ⟨a ++ b, d, resolveFrom_cons_eq_ok_iff.2 ⟨a, b, ha, hb, rfl⟩, hd, (List.append_assoc a b d).symm⟩
    · rintro ⟨_, d, hx, hd, rfl⟩
      obtain ⟨a, b, ha, hb, rfl⟩ := resolveFrom_cons_eq_ok_iff.1 hx
      exact ⟨a, b ++ d, ha, ih.2 ⟨b, d, hb, hd, rfl⟩, List.append_assoc a b d⟩

/-- A label makes no statement, and every other item makes one. -/
theorem length_resolveFrom_singleton {x : Item} {l : List Stmt} (h : resolveFrom table len p [x] = .ok l) :
    l.length = statementCount [x] := by
  cases x with
  | label | wr | rd | bbusyBack => cases h; rfl
  | bbusy L =>
    obtain ⟨t, _, _, rfl⟩ := resolveFrom_bbusy_eq_ok_iff.1 h
    rfl

theorem length_resolveFrom {items : List Item} {l : List Stmt} (h : resolveFrom table len p items = .ok l) :
    l.length = statementCount items := by
  induction items generalizing p l with
  | nil => cases h; rfl
  | cons x items ih =>
    obtain ⟨a, b, ha, hb, rfl⟩ := resolveFrom_cons_eq_ok_iff.1 h
    rw [List.length_append, length_resolveFrom_singleton ha, ih hb]
    exact (statementCount_append [x] items).symm

/-- What stands in the place of an item is what the item is resolved to there. -/
theorem resolveFrom_at {items pre post : List Item} {x : Item} {l : List Stmt} (heq : items = pre ++ x :: post)
    (h : resolveFrom table len 0 items = .ok l) :
    ∃ a, resolveFrom table len (statementCount pre) [x] = .ok a ∧ ∀ s, a = [s] → l[statementCount pre]? = some s := by
  rw [heq] at h
  obtain ⟨b, d, hpre, hx, rfl⟩ := resolveFrom_append_eq_ok_iff.1 h
  obtain ⟨a, d, ha, _, rfl⟩ := resolveFrom_cons_eq_ok_iff.1 hx
  rw [Nat.zero_add] at ha
  refine ⟨a, ha, ?_⟩
  rintro s rfl
  rw [← length_resolveFrom hpre]
  simp

/-- Items whose branches all have one position, that of a statement, are resolved. -/
theorem resolveFrom_answers {items : List Item}
    (h : ∀ L, .bbusy L ∈ items → ∃ t, positionsOf table L = [t] ∧ t < len) :
    ∃ l, resolveFrom table len p items = .ok l := by
  induction items generalizing p with
  | nil => exact ⟨[], rfl⟩
  | cons x items ih =>
    obtain ⟨b, hb⟩ := ih (p := p + statementCount [x]) fun L hL => h L (List.mem_cons_of_mem x hL)
    have hx : ∃ a, resolveFrom table len p [x] = .ok a := by
      cases x with
      | label | wr | rd | bbusyBack => exact ⟨_, rfl⟩
      | bbusy L =>
        obtain ⟨t, ht, hlt⟩ := h L List.mem_cons_self
        exact ⟨_, resolveFrom_bbusy_eq_ok_iff.2 ⟨t, ht, hlt, rfl⟩⟩
    obtain ⟨a, ha⟩ := hx
    exact ⟨a ++ b, resolveFrom_cons_eq_ok_iff.2 ⟨a, b, ha, hb, rfl⟩⟩

/-- A branch goes to a statement of the program, or to one of those resolved before it. -/
theorem branch_target_of_resolveFrom {items : List Item} {l : List Stmt}
    (h : resolveFrom table len p items = .ok l) {t : Nat} (ht : .bbusy t ∈ l) : t < len ∨ t < p + l.length := by
  induction items generalizing p l with
  | nil => cases h; cases ht
  | cons x items ih =>
    obtain ⟨a, b, ha, hb, rfl⟩ := resolveFrom_cons_eq_ok_iff.1 h
    rw [List.length_append]
    obtain ht | ht := List.mem_append.1 ht
    · cases x with
      | label => cases ha; cases ht
      | wr | rd => cases ha; simp at ht
      | bbusyBack =>
        cases ha
        obtain rfl : t = p - 1 := by simpa using ht
        simp only [List.length_singleton]
        omega
      | bbusy L =>
        obtain ⟨u, _, hlt, rfl⟩ := resolveFrom_bbusy_eq_ok_iff.1 ha
        obtain rfl : t = u := by simpa using ht
        exact .inl hlt
    · have hcount := length_resolveFrom_singleton ha
      have := ih hb ht
      omega

end

/-! ### Assembled programs -/

theorem assemble_of_expand {c : Config} {p : Source} {items : List Item} (h : expand c p = .ok items) :
    assemble c p = resolveFrom (labelsFrom 0 items) (statementCount items) 0 items := by
  rw [assemble, h]
  rfl

theorem expand_of_assemble {c : Config} {p : Source} {l : List Stmt} (h : assemble c p = .ok l) :
    ∃ items, expand c p = .ok items ∧
      resolveFrom (labelsFrom 0 items) (statementCount items) 0 items = .ok l :=
  bind_eq_ok_iff.1 h

/-- Settles O52: a target is below the number of statements that the items make, which is the program's length. -/
theorem branchTargetsInProgram : Obligations.BranchTargetsInProgram := by
  unfold Obligations.BranchTargetsInProgram
  intro c p l h t ht
  obtain ⟨items, _, hres⟩ := expand_of_assemble h
  have hlen := length_resolveFrom hres
  have := branch_target_of_resolveFrom hres ht
  omega

/-- A line without a label, as the whole program. -/
theorem assemble_line_of_expandStmt {c : Config} {s : SrcStmt} {items : List Item} (h : expandStmt c s = .ok items) :
    assemble c (.line none s .done) = resolveFrom (labelsFrom 0 items) (statementCount items) 0 items := by
  refine assemble_of_expand ?_
  rw [expand, h]
  simp [expand, labelItems, bind, Except.bind]

theorem asmValue_of_lt {v : Nat} (h : v < 2 ^ 32) : asmValue v = .ok (BitVec.ofNat 32 v) := if_pos h

theorem assemble_rd {c : Config} {l : Loc} {off : Nat} (h : locOffset c l = .ok off) :
    assemble c (.line none (.rd l) .done) = .ok [.rd .w32 off] := by
  rw [assemble_line_of_expandStmt (items := [.rd off])]
  · rfl
  · rw [expandStmt, h]
    rfl

theorem assemble_wr {c : Config} {l : Loc} {off v : Nat} (h : locOffset c l = .ok off) (hv : v < 2 ^ 32) :
    assemble c (.line none (.wr l v) .done) = .ok [.wr .w32 off (BitVec.ofNat 32 v)] := by
  rw [assemble_line_of_expandStmt (items := [.wr off (BitVec.ofNat 32 v)])]
  · rfl
  · rw [expandStmt, h, asmValue_of_lt hv]
    rfl

/-- A label of one's own before a `wait` is the target of a branch behind it. -/
theorem assemble_branch_backward (c : Config) (L : String) :
    assemble c (.line none .chkerr (.line (some L) .wait (.line none (.bbusy L) .done))) =
      .ok [.rd .w32 0x004, .rd .w32 0x004, .bbusy 1, .bbusy 1] := by
  have hexp : expand c (.line none .chkerr (.line (some L) .wait (.line none (.bbusy L) .done))) =
      .ok ([.rd 0x004, .label L, .rd 0x004, .bbusyBack] ++ [.bbusy L]) := rfl
  have hpos : positionsOf (labelsFrom 0 ([.rd 0x004] ++ .label L :: [.rd 0x004, .bbusyBack, .bbusy L])) L = [1] :=
    positionsOf_labelsFrom_of_standsOnce (by simp) (by simp)
  rw [assemble_of_expand hexp]
  exact resolveFrom_append_eq_ok_iff.2
    ⟨_, _, rfl, resolveFrom_bbusy_eq_ok_iff.2 ⟨1, hpos, by simp [statementCount], rfl⟩, rfl⟩

/-- Settles O59: a location is its offset, an item's place is the number of statements before it, and a label's one
position is the number of statements before the label. -/
theorem locationsAssemble : Obligations.LocationsAssemble := by
  unfold Obligations.LocationsAssemble
  refine ⟨fun c v hv => ?_, fun c p items hitems => ?_⟩
  · intro reads writes
    have hloc : ∀ {l off}, locOffset c l = .ok off → reads l off ∧ writes l off :=
      fun h => ⟨assemble_rd h, assemble_wr h hv⟩
    refine ⟨fun e he => hloc ?_, fun i hi => hloc (if_pos hi), fun i hi => hloc (if_pos (by omega)),
      fun off => hloc rfl, fun L => ?_⟩
    · fin_cases he <;> rfl
    · exact assemble_branch_backward c L
  · intro standsOnce
    have hpos : ∀ {L before after}, standsOnce L before after →
        positionsOf (labelsFrom 0 items) L = [statementCount before] := by
      rintro L before after ⟨heq, hb, ha⟩
      rw [heq, positionsOf_labelsFrom_of_standsOnce hb ha]
    rw [assemble_of_expand hitems]
    refine ⟨fun l hl => ⟨length_resolveFrom hl, ?_⟩, fun h => resolveFrom_answers fun L hL => ?_⟩
    · rintro pre x post heq
      obtain ⟨a, ha, hat⟩ := resolveFrom_at heq hl
      refine ⟨?_, ?_, ?_, ?_⟩
      · rintro off v rfl
        cases ha
        exact hat _ rfl
      · rintro off rfl
        cases ha
        exact hat _ rfl
      · rintro rfl
        cases ha
        exact hat _ rfl
      · rintro L before after rfl hone
        obtain ⟨t, ht, hlt, rfl⟩ := resolveFrom_bbusy_eq_ok_iff.1 ha
        obtain rfl : statementCount before = t := by simpa using (hpos hone).symm.trans ht
        exact ⟨hat _ rfl, (length_resolveFrom hl).symm ▸ hlt⟩
    · obtain ⟨before, after, hone, hafter⟩ := h L hL
      refine ⟨_, hpos hone, ?_⟩
      obtain ⟨heq, _, _⟩ := hone
      have hcount : statementCount (.label L :: after) = statementCount after := rfl
      rw [heq, statementCount_append, hcount]
      omega

/-! ### The pseudo-instructions (30_encoding.md R88) -/

theorem expandStmt_seed (c : Config) {S : Nat} (hS : S < 2 ^ 64) :
    expandStmt c (.seed S) =
      .ok ([.wr 0x008 (BitVec.ofNat 32 S), .wr 0x00C (BitVec.ofNat 32 (S / 2 ^ 32)), .wr 0x000 1] ++ waitItems) :=
  if_pos hS

/-- The key writes are one write for each key word, at the offsets of KEY(i), KEY(i+1), ... -/
theorem keyItems_of_lt {ks : List Nat} (h : ∀ k ∈ ks, k < 2 ^ 32) (i : Nat) :
    keyItems i ks = .ok (ks.mapIdx fun j k => .wr (0x1000 + 4 * (i + j)) (BitVec.ofNat 32 k)) := by
  induction ks generalizing i with
  | nil => rfl
  | cons k ks ih =>
    obtain ⟨hk, hks⟩ := List.forall_mem_cons.1 h
    rw [keyItems, asmValue_of_lt hk, ih hks]
    simp [bind, Except.bind, List.mapIdx_cons, Nat.add_assoc, Nat.add_comm 1]

/-- Writes are resolved one by one, wherever they stand. -/
theorem resolveFrom_writes (table : List (String × Nat)) (len p : Nat) (ws : List (Nat × Word)) :
    resolveFrom table len p (ws.map fun w => .wr w.1 w.2) = .ok (ws.map fun w => .wr .w32 w.1 w.2) := by
  induction ws generalizing p with
  | nil => rfl
  | cons w ws ih => exact resolveFrom_cons_eq_ok_iff.2 ⟨[.wr .w32 w.1 w.2], _, rfl, ih (p + 1), rfl⟩

/-- The key writes of `seeda`, each with its offset and its word. -/
def keyWrites (ks : List Nat) : List (Nat × Word) := ks.mapIdx fun i k => (0x1000 + 4 * i, BitVec.ofNat 32 k)

theorem map_keyWrites {α : Type} (g : Nat × Word → α) (ks : List Nat) :
    (keyWrites ks).map g = ks.mapIdx fun i k => g (0x1000 + 4 * i, BitVec.ofNat 32 k) :=
  List.ext_getElem (by simp [keyWrites]) (by simp [keyWrites])

theorem keyItems_eq_keyWrites {ks : List Nat} (h : ∀ k ∈ ks, k < 2 ^ 32) :
    keyItems 0 ks = .ok ((keyWrites ks).map fun w => .wr w.1 w.2) := by
  simp [keyItems_of_lt h, map_keyWrites]

theorem expandStmt_seeda {c : Config} {ks : List Nat} (h1 : 1 ≤ ks.length) (hmax : ks.length ≤ c.keyMax)
    (hks : ∀ k ∈ ks, k < 2 ^ 32) :
    expandStmt c (.seeda ks) = .ok (((keyWrites ks).map fun w => .wr w.1 w.2) ++
      [.wr 0x010 (BitVec.ofNat 32 ks.length), .wr 0x000 2, .rd 0x004, .bbusyBack]) := by
  rw [expandStmt, if_pos ⟨h1, hmax⟩, keyItems_eq_keyWrites hks]
  simp [bind, Except.bind, cmdItem, waitItems, Reg.offset, encode]

theorem assemble_seeda {c : Config} {ks : List Nat} (h1 : 1 ≤ ks.length) (hmax : ks.length ≤ c.keyMax)
    (hks : ∀ k ∈ ks, k < 2 ^ 32) :
    assemble c (.line none (.seeda ks) .done) =
      .ok (ks.mapIdx (fun i k => .wr .w32 (0x1000 + 4 * i) (BitVec.ofNat 32 k)) ++
        [.wr .w32 0x010 (BitVec.ofNat 32 ks.length), .wr .w32 0x000 2, .rd .w32 0x004, .bbusy (ks.length + 2)]) := by
  have hwrites := fun table len => resolveFrom_writes table len 0 (keyWrites ks)
  have hcount : statementCount ((keyWrites ks).map fun w => .wr w.1 w.2) = ks.length := by
    simpa [keyWrites] using (length_resolveFrom (hwrites [] 0)).symm
  rw [assemble_line_of_expandStmt (expandStmt_seeda h1 hmax hks), ← map_keyWrites fun w => Stmt.wr .w32 w.1 w.2]
  refine resolveFrom_append_eq_ok_iff.2 ⟨_, _, hwrites _ _, ?_, rfl⟩
  rw [hcount, Nat.zero_add]
  rfl

theorem copies_eq (n : Nat) (l : List Item) : copies n l = (List.replicate n l).flatten := by
  induction n with
  | zero => rfl
  | succ n ih => rw [copies, ih, List.replicate_succ, List.flatten_cons]

/-- The last copy stands behind the others. -/
theorem copies_succ_append (n : Nat) (l : List Item) : copies (n + 1) l = copies n l ++ l := by
  rw [copies_eq, copies_eq, List.replicate_succ', List.flatten_concat]

theorem statementCount_copies (n : Nat) (l : List Item) : statementCount (copies n l) = n * statementCount l := by
  induction n with
  | zero => simp [copies, statementCount]
  | succ n ih => rw [copies, statementCount_append, ih, Nat.succ_mul, Nat.add_comm]

/-- The expansion of `next`. -/
def nextItems : List Item := [.wr 0x000 3, .rd 0x004, .bbusyBack, .rd 0x014]

/-- The statements of the extraction number k of a program of extractions. -/
def nextStmts (k : Nat) : List Stmt := [.wr .w32 0x000 3, .rd .w32 0x004, .bbusy (4 * k + 1), .rd .w32 0x014]

theorem resolveFrom_copies_nextItems (table : List (String × Nat)) (len n : Nat) :
    resolveFrom table len 0 (copies n nextItems) = .ok ((List.range n).flatMap nextStmts) := by
  induction n with
  | zero => rfl
  | succ n ih =>
    have hcount : statementCount (copies n nextItems) = 4 * n := by
      rw [statementCount_copies, Nat.mul_comm]
      rfl
    rw [copies_succ_append, List.range_succ, List.flatMap_append]
    refine resolveFrom_append_eq_ok_iff.2 ⟨_, _, ih, ?_, rfl⟩
    rw [hcount, Nat.zero_add]
    simp [nextItems, nextStmts, resolveFrom, bind, Except.bind]

theorem expand_rep_of_expand {c : Config} {body rest : Source} {x y : List Item} (hx : expand c body = .ok x)
    (hy : expand c rest = .ok y) (n : Nat) : expand c (.rep none n body rest) = .ok (copies n x ++ y) := by
  rw [expand, hx, hy]
  rfl

/-- Settles O51: a line's expansion is resolved as it stands; the copies of a body stand one behind the other. -/
theorem pseudoInstructionsExpand : Obligations.PseudoInstructionsExpand := by
  unfold Obligations.PseudoInstructionsExpand
  intro c
  refine ⟨fun S hS => ?_, fun ks h1 hmax hks => assemble_seeda h1 hmax hks, rfl, rfl, rfl, rfl, fun e he => ?_,
    fun n body rest x y hx hy => ?_, fun n => ?_⟩
  · rw [assemble_line_of_expandStmt (expandStmt_seed c hS)]
    rfl
  · fin_cases he <;> rfl
  · rw [expand_rep_of_expand hx hy, copies_eq]
  · have hexp := expand_rep_of_expand (c := c) (body := .line none .next .done) (x := nextItems) rfl
      (rest := .done) rfl n
    rw [List.append_nil] at hexp
    rw [assemble_of_expand hexp, resolveFrom_copies_nextItems]
    rfl

/-! ### What the assembler refuses (30_encoding.md R88) -/

theorem expand_line_refused {c : Config} {s : SrcStmt} (h : ∃ e, expandStmt c s = .error e) (lab : Option String)
    (rest : Source) : ∃ e, expand c (.line lab s rest) = .error e :=
  bind_refused_left h _

theorem asmValue_refused {v : Nat} (h : 2 ^ 32 ≤ v) : asmValue v = .error .valueTooLarge := if_neg (Nat.not_lt.2 h)

theorem keyItems_refused {ks : List Nat} (h : ∃ k ∈ ks, 2 ^ 32 ≤ k) (i : Nat) : ∃ e, keyItems i ks = .error e := by
  induction ks generalizing i with
  | nil => simp at h
  | cons k ks ih =>
    obtain hk | hks := (List.exists_mem_cons_iff _ _ _).1 h
    · exact bind_refused_left ⟨_, asmValue_refused hk⟩ _
    · exact bind_refused_right _ fun v => bind_refused_left (ih hks (i + 1)) _

theorem regNamed_unknown {n : String} (h : n ∉ ["CMD", "STATUS", "SEED_LO", "SEED_HI", "KEYLEN", "OUT", "ORIG_SEED_LO",
    "ORIG_SEED_HI", "TWISTS", "ID", "KEYMAX"]) : regNamed n = .error .unknownName := by
  simp only [List.mem_cons, List.not_mem_nil, or_false, not_or] at h
  simp [regNamed, h]

theorem commandNamed_unknown {op : String} (h : op ∉ ["SEED", "SEEDA", "NEXT", "CLRERR"]) :
    commandNamed op = .error .unknownName := by
  simp only [List.mem_cons, List.not_mem_nil, or_false, not_or] at h
  simp [commandNamed, h]

section
variable {c : Config}

theorem expandStmt_wr_value_refused {v : Nat} (h : 2 ^ 32 ≤ v) (l : Loc) : ∃ e, expandStmt c (.wr l v) = .error e :=
  bind_refused_right _ fun _ => bind_refused_left ⟨_, asmValue_refused h⟩ _

theorem locOffset_name_refused {n : String} (h : n ∉ ["CMD", "STATUS", "SEED_LO", "SEED_HI", "KEYLEN", "OUT",
    "ORIG_SEED_LO", "ORIG_SEED_HI", "TWISTS", "ID", "KEYMAX"]) : ∃ e, locOffset c (.name n) = .error e := by
  rw [locOffset, regNamed_unknown h]
  exact ⟨_, rfl⟩

theorem locOffset_key_refused {i : Nat} (h : c.keyMax ≤ i) : ∃ e, locOffset c (.key i) = .error e :=
  ⟨.keyIndex, if_neg (Nat.not_lt.2 h)⟩

theorem locOffset_state_refused {i : Nat} (h : 623 < i) : ∃ e, locOffset c (.state i) = .error e :=
  ⟨.stateIndex, if_neg (Nat.not_lt.2 h)⟩

/-- A location that is refused is refused for a read and for a write of any value. -/
theorem expand_loc_refused {l : Loc} (h : ∃ e, locOffset c l = .error e) (lab : Option String) (rest : Source) :
    (∃ e, expand c (.line lab (.rd l) rest) = .error e) ∧ ∀ v, ∃ e, expand c (.line lab (.wr l v) rest) = .error e :=
  ⟨expand_line_refused (bind_refused_left h _) lab rest, fun _ => expand_line_refused (bind_refused_left h _) lab rest⟩

theorem expandStmt_seeda_length_refused {ks : List Nat} (h : ks.length = 0 ∨ c.keyMax < ks.length) :
    ∃ e, expandStmt c (.seeda ks) = .error e :=
  ⟨_, if_neg (by omega)⟩

theorem expandStmt_seeda_value_refused {ks : List Nat} (h : ∃ k ∈ ks, 2 ^ 32 ≤ k) :
    ∃ e, expandStmt c (.seeda ks) = .error e := by
  rw [expandStmt]
  split_ifs
  · exact bind_refused_left (keyItems_refused h 0) _
  · exact ⟨_, rfl⟩

end

/-- Settles O60: a refused part refuses the line, the `repeat` and the program that holds it. -/
theorem assemblerRefusals : Obligations.AssemblerRefusals := by
  unfold Obligations.AssemblerRefusals
  intro c lab rest refused
  refine ⟨fun l v hv => expand_line_refused (expandStmt_wr_value_refused hv l) lab rest,
    fun ks hks => expand_line_refused (expandStmt_seeda_value_refused hks) lab rest,
    fun n hn => expand_loc_refused (locOffset_name_refused hn) lab rest,
    fun op hop => expand_line_refused (bind_refused_left ⟨_, commandNamed_unknown hop⟩ _) lab rest,
    fun i hi => expand_loc_refused (locOffset_key_refused hi) lab rest,
    fun i hi => expand_loc_refused (locOffset_state_refused hi) lab rest,
    fun ks hks => expand_line_refused (expandStmt_seeda_length_refused hks) lab rest, fun p hp => ?_⟩
  exact ⟨bind_refused_left hp _, fun s => bind_refused_right _ fun _ => bind_refused_left hp _,
    fun n => ⟨bind_refused_left hp _, bind_refused_right _ fun _ => bind_refused_left hp _⟩⟩

end Sys2Proof.Machine


/-! ## The seed initialization engine (41_seeding.md) -/

namespace Sys2Proof.Machine

/-! ### The integer recurrences (41_seeding.md R100, R101, R102) -/

theorem word_initGenrand_zero (s : Word) : word (initGenrand s) 0 = s :=
  word_unfoldFrom_zero genrandStep s 0 624 (by decide)

theorem word_initGenrand_succ (s : Word) {k : Nat} (hk : k + 1 < 624) :
    word (initGenrand s) (k + 1) = genrandStep (word (initGenrand s) k) (k + 1) := by
  rw [initGenrand, word_unfoldFrom_succ genrandStep s 0 624 k hk, Nat.zero_add]

theorem word_initLcg69069_zero (s : Word) : word (initLcg69069 s) 0 = s :=
  word_unfoldFrom_zero lcgStep s 0 624 (by decide)

theorem word_initLcg69069_succ (s : Word) {k : Nat} (hk : k + 1 < 624) :
    word (initLcg69069 s) (k + 1) = lcgMul * word (initLcg69069 s) k :=
  word_unfoldFrom_succ lcgStep s 0 624 k hk

/-- Settles O23: each word of a recurrence is one step from the word before it; the choice of INIT_INT is by cases. -/
theorem integerSeedRecurrences : Obligations.IntegerSeedRecurrences := by
  unfold Obligations.IntegerSeedRecurrences
  refine ⟨fun s => ⟨length_initGenrand s, word_initGenrand_zero s, fun i h1 h623 => ?_⟩,
    fun s => ⟨length_initLcg69069 s, word_initLcg69069_zero s, fun i h1 h623 => ?_⟩, fun _ => ⟨rfl, rfl, rfl⟩⟩
  · obtain ⟨k, rfl⟩ := Nat.exists_eq_add_of_le' h1
    exact word_initGenrand_succ s (by omega)
  · obtain ⟨k, rfl⟩ := Nat.exists_eq_add_of_le' h1
    exact word_initLcg69069_succ s (by omega)

/-! ### The bits that the twist reads are not all zero (41_seeding.md R108, R111) -/

/-- Array seeding forces the whole first word. -/
theorem word_initArray_zero (key : List Word) : word (initArray key) 0 = aForce := by
  have hlen := length_initArray key
  rw [initArray, List.length_set] at hlen
  rw [initArray, word_set, if_pos ⟨rfl, by omega⟩]

/-- A word 0 leaves the index alone in the next word. -/
theorem genrandStep_zero (i : Nat) : genrandStep 0 i = BitVec.ofNat 32 i := by
  simp [genrandStep]

theorem ofNat_ne_zero_of_index {i : Nat} (h1 : 1 ≤ i) (h623 : i ≤ 623) : BitVec.ofNat 32 i ≠ 0 := by
  bv_omega

/-- A word 0 of INIT_GENRAND is followed by the word that is its own index. -/
theorem word_initGenrand_succ_of_zero {s : Word} {k : Nat} (hk : k + 1 < 624) (h : word (initGenrand s) k = 0) :
    word (initGenrand s) (k + 1) = BitVec.ofNat 32 (k + 1) := by
  rw [word_initGenrand_succ s hk, h, genrandStep_zero]

/-- Of two consecutive words of INIT_GENRAND one is not 0. -/
theorem word_initGenrand_succ_ne_zero {s : Word} {k : Nat} (hk : k + 1 < 624) (h : word (initGenrand s) k = 0) :
    word (initGenrand s) (k + 1) ≠ 0 := by
  rw [word_initGenrand_succ_of_zero hk h]
  exact ofNat_ne_zero_of_index (by omega) (by omega)

/-- The multiplicative recurrence stays at 0. -/
theorem unfoldFrom_lcgStep_zero (i n : Nat) : unfoldFrom lcgStep 0 i n = List.replicate n 0 := by
  induction n generalizing i with
  | zero => rfl
  | succ n ih => rw [unfoldFrom, show lcgStep 0 (i + 1) = 0 from BitVec.mul_zero, ih, List.replicate_succ]

/-- INIT_LCG69069 holds only zeros exactly when it is seeded with 0. -/
theorem initLcg69069_all_zero_iff (s : Word) : (∀ w ∈ initLcg69069 s, w = 0) ↔ s = 0 := by
  constructor
  · intro h
    exact h s List.mem_cons_self
  · rintro rfl w hw
    rw [initLcg69069, unfoldFrom_lcgStep_zero] at hw
    exact List.eq_of_mem_replicate hw

/-- Settles O25: the force for SEEDA, two consecutive words for INIT_GENRAND, the first word for INIT_LCG69069. -/
theorem seededArrayNotAllZero : Obligations.SeededArrayNotAllZero := by
  unfold Obligations.SeededArrayNotAllZero
  refine ⟨word_initArray_zero, fun s i h1 h623 h => ?_, fun s => ?_, initLcg69069_all_zero_iff⟩
  · obtain ⟨k, rfl⟩ := Nat.exists_eq_add_of_le' h1
    exact ⟨word_initGenrand_succ_of_zero (by omega) h, word_initGenrand_succ_ne_zero (by omega) h⟩
  · by_cases h : word (initGenrand s) 1 = 0
    · exact ⟨2, by decide, by decide, word_initGenrand_succ_ne_zero (by decide) h⟩
    · exact ⟨1, by decide, by decide, h⟩

/-! ### Array seeding (41_seeding.md R105 to R108) -/

/-- The last of n + 1 iterations. -/
theorem repeatMix_succ (f : Mix → Mix) (n : Nat) (x : Mix) : repeatMix f (n + 1) x = f (repeatMix f n x) := by
  induction n generalizing x with
  | zero => rfl
  | succ n ih => rw [repeatMix, ih, repeatMix]

theorem wrapIndex_index (A : List Word) (i : Nat) : (wrapIndex A i).2 = if 624 ≤ i then 1 else i := by
  unfold wrapIndex
  split <;> rfl

/-- The wrap copies the last word to the first and writes no other word. -/
theorem word_wrapIndex (A : List Word) (i k : Nat) :
    word (wrapIndex A i).1 k = if 624 ≤ i ∧ 0 = k ∧ k < A.length then word A 623 else word A k := by
  unfold wrapIndex
  split
  next h => simp only [word_set, h, true_and]
  next h => rw [if_neg (by omega)]

/-! What both passes do to the array: the word v is written at i, and then the wrap test is made. -/
section
variable {A : List Word} {i : Nat} (v : Word)

theorem word_mixed_same (hA : A.length = 624) (h1 : 1 ≤ i) (h623 : i ≤ 623) :
    word (wrapIndex (A.set i v) (i + 1)).1 i = v := by
  rw [word_wrapIndex, if_neg (by omega), word_set, if_pos ⟨rfl, by omega⟩]

theorem word_mixed_other {k : Nat} (hi : k ≠ i) (h0 : k ≠ 0) :
    word (wrapIndex (A.set i v) (i + 1)).1 k = word A k := by
  rw [word_wrapIndex, if_neg (by omega), word_set, if_neg (by omega)]

theorem word_mixed_zero (hA : A.length = 624) (h1 : 1 ≤ i) (h623 : i ≤ 623) :
    word (wrapIndex (A.set i v) (i + 1)).1 0 =
      if i = 623 then word (wrapIndex (A.set i v) (i + 1)).1 623 else word A 0 := by
  split
  next hw => rw [word_wrapIndex, word_wrapIndex, if_pos (by simp [hw, hA]), if_neg (by omega)]
  next hw => rw [word_wrapIndex, if_neg (by omega), word_set, if_neg (by omega)]

end

/-- The index that comes after n mod L, as the test of j puts it. -/
theorem succ_mod_eq_wrap (n : Nat) {L : Nat} (hL : 0 < L) :
    (if L ≤ n % L + 1 then 0 else n % L + 1) = (n + 1) % L := by
  have hlt := Nat.mod_lt n hL
  rw [← Nat.mod_add_mod n L 1]
  split
  next hw => rw [show n % L + 1 = L by omega, Nat.mod_self]
  next hw => rw [Nat.mod_eq_of_lt (show n % L + 1 < L by omega)]

theorem pass1_indices (A : List Word) {key : List Word} (hkey : key ≠ []) (n : Nat) :
    (repeatMix (pass1Step key) n { A := A, i := 1, j := 0 }).i = n % 623 + 1 ∧
    (repeatMix (pass1Step key) n { A := A, i := 1, j := 0 }).j = n % key.length := by
  induction n with
  | zero => exact ⟨rfl, (Nat.zero_mod _).symm⟩
  | succ n ih =>
    obtain ⟨hi, hj⟩ := ih
    rw [repeatMix_succ]
    simp only [pass1Step, wrapIndex_index, hi, hj]
    refine ⟨?_, succ_mod_eq_wrap n (List.length_pos_iff.2 hkey)⟩
    split <;> omega

theorem pass2_index (A : List Word) {i : Nat} (j : Nat) (h1 : 1 ≤ i) (h623 : i ≤ 623) (n : Nat) :
    (repeatMix pass2Step n { A := A, i := i, j := j }).i = (n + i - 1) % 623 + 1 := by
  induction n with
  | zero => simp only [repeatMix]; omega
  | succ n ih =>
    rw [repeatMix_succ]
    simp only [pass2Step, wrapIndex_index, ih]
    split <;> omega

/-- Settles O26: the number of iterations is by definition; the index walks are by induction on the iterations, and each
iteration writes the word at i and then makes the wrap test. -/
theorem arraySeedingIndices : Obligations.ArraySeedingIndices := by
  unfold Obligations.ArraySeedingIndices
  refine ⟨fun _ => rfl, fun key A n hkey hA => ?_⟩
  obtain ⟨hi, hj⟩ := pass1_indices A hkey n
  have hlen : (repeatMix (pass1Step key) n { A := A, i := 1, j := 0 }).A.length = 624 :=
    (length_repeatMix (length_pass1Step key) n _).trans hA
  refine ⟨hi, hj, word_mixed_same _ hlen (by omega) (by omega), fun k _ hk h0 => word_mixed_other _ hk h0,
    word_mixed_zero _ hlen (by omega) (by omega), fun i j h1 h623 => ?_⟩
  have hi := pass2_index A j h1 h623 n
  have hlen : (repeatMix pass2Step n { A := A, i := i, j := j }).A.length = 624 :=
    (length_repeatMix length_pass2Step n _).trans hA
  exact ⟨hi, word_mixed_same _ hlen (by omega) (by omega), fun k _ hk h0 => word_mixed_other _ hk h0,
    word_mixed_zero _ hlen (by omega) (by omega)⟩

/-! ### The low bits of the first word (41_seeding.md R112) -/

/-- The upper mask keeps bit 31 alone. -/
theorem and_upperMask_congr {a b : Word} (h : a.getLsbD 31 = b.getLsbD 31) : a &&& upperMask = b &&& upperMask := by
  have hmask : upperMask = BitVec.twoPow 32 31 := by decide
  rw [hmask, BitVec.and_twoPow, BitVec.and_twoPow, h]

theorem twistWord_congr_bit31 {a a' : Word} (h : a.getLsbD 31 = a'.getLsbD 31) (b c : Word) :
    twistWord a b c = twistWord a' b c := by
  rw [twistWord, twistWord, and_upperMask_congr h]

/-- The first step of TWIST overwrites word 0, of which it reads bit 31 alone. -/
theorem twistStep_zero_set_zero {A : List Word} {v : Word} (hA : 0 < A.length)
    (h : v.getLsbD 31 = (word A 0).getLsbD 31) : twistStep (A.set 0 v) 0 = twistStep A 0 := by
  have h0 : word (A.set 0 v) 0 = v := by rw [word_set, if_pos ⟨rfl, hA⟩]
  have hother : ∀ k, k ≠ 0 → word (A.set 0 v) k = word A k := fun k hk => by rw [word_set, if_neg (by omega)]
  rw [twistStep, List.set_set, h0, hother _ (by decide), hother _ (by decide), twistWord_congr_bit31 h, twistStep]

/-- The steps of TWIST after the first. -/
theorem twist_eq_foldl_after_first (A : List Word) :
    twist A = ((List.range 623).map Nat.succ).foldl twistStep (twistStep A 0) := by
  rw [twist, List.range_succ_eq_map, List.foldl_cons]

/-- Settles O27: the first step of TWIST reads bit 31 of word 0 and overwrites the word. -/
theorem firstWordLowBitsUnread : Obligations.FirstWordLowBitsUnread := by
  unfold Obligations.FirstWordLowBitsUnread
  intro A v hA h
  rw [twist_eq_foldl_after_first, twist_eq_foldl_after_first, twistStep_zero_set_zero (by omega) h]

/-! ### The seeding commands (41_seeding.md R103, R110) -/

theorem exec_seed_busy {s : State} (hb : s.busy = true) : exec .seed s = .next (performSeed s).complete := if_pos hb

theorem exec_seeda_busy {s : State} (hb : s.busy = true) :
    exec .seeda s = andThen (performSeeda s) fun t => .next t.complete := if_pos hb

/-- PerformSEED takes the low half of the seed for the recurrence and both halves for ORIG_SEED. -/
theorem performSeed_eq (s : State) :
    performSeed s = s.loadSeeded (initInt s.config.intSeedAlg s.seedLo) (s.seedHi ++ s.seedLo) false := by
  rw [performSeed, seedOperand, lowWord_append]

theorem performSeeda_of_key {s : State} {key : List Word} (hk : keyLenOk s.config s.keyLen)
    (h : keyOperand s = .ok key) : performSeeda s = .next (s.loadSeeded (initArray key) 0 true) := by
  rw [performSeeda, if_pos hk, h]

theorem performSeeda_of_unwritten {s : State} {j : Nat} (hk : keyLenOk s.config s.keyLen)
    (h : keyOperand s = .error j) : performSeeda s = .fault (.unwrittenKeyUse j) := by
  rw [performSeeda, if_pos hk, h]

/-- Settles O13: the completion is PerformSEED. -/
theorem seedCompletes : Obligations.SeedCompletes := by
  unfold Obligations.SeedCompletes
  intro s hb
  rw [exec_seed_busy hb, performSeed_eq, State.loadSeeded, State.complete]

/-- Settles O14: the words below KEYLEN are the key operand, with which PerformSEEDA loads INIT_ARRAY. -/
theorem seedaCompletes : Obligations.SeedaCompletes := by
  unfold Obligations.SeedaCompletes
  intro s key hb hlen h1 hmax hwritten
  have hk : keyLenOk s.config s.keyLen = true := (keyLenOk_iff _ _).2 (by omega)
  have hkey : keyOperand s = .ok key :=
    (keyWordsFrom_eq_ok_iff s 0 _ key).2 ⟨hlen, fun i hi => by rw [Nat.zero_add, hwritten i hi]⟩
  rw [exec_seeda_busy hb, performSeeda_of_key hk hkey, andThen_next, State.loadSeeded, State.complete]

/-- Settles O15: the first UNWRITTEN word below KEYLEN is where the key operand is lost (log entry 9). -/
theorem seedaFaultsOnUnwrittenKey : Obligations.SeedaFaultsOnUnwrittenKey := by
  unfold Obligations.SeedaFaultsOnUnwrittenKey
  intro s j hb hmax hj hnone hfirst
  have hk : keyLenOk s.config s.keyLen = true := (keyLenOk_iff _ _).2 (by omega)
  have hkey : keyOperand s = .error j :=
    (keyWordsFrom_eq_error_iff s 0 _ j).2 ⟨Nat.zero_le j, by omega, hnone, fun i _ hi => hfirst i hi⟩
  rw [exec_seeda_busy hb, performSeeda_of_unwritten hk hkey, andThen_fault]

/-! ### What the NEXT commands read depends on MT and CURSOR alone (43_extract.md R151) -/

/-- What a run of NEXT commands reads and writes of the generator, TWISTS aside. -/
structure NextStream where
  mt : List Word
  cursor : BitVec 10
  out : Word

/-- One NEXT: below 624 it reads the word at CURSOR, else the first word after a twist. -/
def NextStream.advance (g : NextStream) : NextStream :=
  if g.cursor.toNat < 624 then { g with cursor := g.cursor + 1, out := temper (word g.mt g.cursor.toNat) }
  else { mt := twist g.mt, cursor := 1, out := temper (word (twist g.mt) 0) }

/-- A seeded block, with a command pending or not, whose generator is at g. -/
structure StandsAt (g : NextStream) (s : State) : Prop where
  seeded : s.seeded = true
  written : mtArray s = some g.mt
  cursor : s.cursor = g.cursor
  out : s.out = g.out

theorem exec_next_busy {s : State} (hb : s.busy = true) :
    exec .next s = andThen (performNext s) fun t => .next t.complete := if_pos hb

theorem StandsAt.accept {g : NextStream} {s : State} (h : StandsAt g s) (i : Instr) : StandsAt g (s.accept i) :=
  { h with }

/-- PerformNEXT advances the stream, on both sides of CURSOR = 624. -/
theorem StandsAt.performNext_advances {g : NextStream} {s : State} (h : StandsAt g s) :
    ∃ t, performNext s = .next t ∧ StandsAt g.advance t.complete := by
  obtain ⟨hseeded, hwritten, hcursor, -⟩ := h
  obtain ⟨hmt, hlen⟩ := (mtArray_eq_some_iff s g.mt).1 hwritten
  obtain ⟨t, ht⟩ := performNext_answers hwritten
  refine ⟨t, ht, ?_⟩
  obtain ⟨hlt, y, hy, rfl⟩ | ⟨hge, A, hA, rfl⟩ := performNext_cases ht
  · rw [mtWord_of_words hmt (by omega), Option.some.injEq] at hy
    rw [NextStream.advance, if_pos (hcursor ▸ hlt), ← hcursor, hy]
    exact ⟨hseeded, hwritten, rfl, rfl⟩
  · obtain rfl := Option.some.inj (hwritten.symm.trans hA)
    rw [NextStream.advance, if_neg (hcursor ▸ Nat.not_lt.2 hge)]
    exact ⟨by simp [hseeded], (mtArray_eq_some_iff _ _).2 ⟨by simp, by simp [hlen]⟩, by simp, by simp⟩

/-- A NEXT that is issued and completed advances the stream. -/
theorem StandsAt.runCommand_next_advances {g : NextStream} {s : State} (h : StandsAt g s) (hb : s.busy = false) :
    ∃ t, runCommand .next s = .next t ∧ t.busy = false ∧ StandsAt g.advance t := by
  obtain ⟨t, ht, hstands⟩ := (h.accept .next).performNext_advances
  refine ⟨t.complete, ?_, rfl, hstands⟩
  rw [runCommand, exec_next_idle_seeded hb h.seeded, andThen_next, if_pos (State.accept_busy _ _),
    exec_next_busy (State.accept_busy _ _), ht, andThen_next]

/-- Any number of NEXT commands advance the stream as often. -/
theorem StandsAt.nextTimes_advances {g : NextStream} {s : State} (h : StandsAt g s) (hb : s.busy = false) (n : Nat) :
    ∃ t, nextTimes n s = .next t ∧ t.busy = false ∧ StandsAt (NextStream.advance^[n] g) t := by
  induction n with
  | zero => exact ⟨s, rfl, hb, h⟩
  | succ n ih =>
    obtain ⟨t, ht, hbt, hstands⟩ := ih
    obtain ⟨u, hu, hbu, hu'⟩ := hstands.runCommand_next_advances hbt
    refine ⟨u, ?_, hbu, ?_⟩
    · rw [nextTimes, ht, andThen_next, hu]
    · rwa [Function.iterate_succ_apply']

/-- After a seeding with the words A the stream begins at CURSOR = 624 (41_seeding.md R103, R110). -/
theorem standsAt_loadSeeded {A : List Word} (hA : A.length = 624) (o : DWord) (b : Bool) (s : State) :
    StandsAt { mt := A, cursor := 624, out := 0 } (s.loadSeeded A o b).complete :=
  ⟨rfl, (mtArray_eq_some_iff _ _).2 ⟨rfl, hA⟩, rfl, rfl⟩

/-- Settles O24: both completions load the same array, so both blocks stand at the same stream. -/
theorem seedIsIdempotent : Obligations.SeedIsIdempotent := by
  unfold Obligations.SeedIsIdempotent
  intro s₁ s₂ t₁ t₂ hb₁ hb₂ hc hlo hhi h₁ h₂
  rw [exec_seed_busy hb₁, performSeed_eq, Host.Outcome.next.injEq] at h₁
  rw [exec_seed_busy hb₂, performSeed_eq, ← hc, ← hlo, ← hhi, Host.Outcome.next.injEq] at h₂
  subst h₁ h₂
  refine ⟨rfl, rfl, rfl, rfl, rfl, rfl, rfl, rfl, rfl, rfl, rfl, rfl, fun n => ?_⟩
  obtain ⟨u₁, hu₁, -, hs₁⟩ := (standsAt_loadSeeded (length_initInt _ _) _ _ s₁).nextTimes_advances rfl n
  obtain ⟨u₂, hu₂, -, hs₂⟩ := (standsAt_loadSeeded (length_initInt _ _) _ _ s₂).nextTimes_advances rfl n
  exact ⟨u₁, u₂, hu₁, hu₂, hs₁.out.trans hs₂.out.symm⟩

end Sys2Proof.Machine

/-! ## The twist (42_twist.md) -/

namespace Sys2Proof.Machine

/-! ### The one-word twist (42_twist.md R133) -/

theorem getLsbD_upperMask (i : Nat) : upperMask.getLsbD i = decide (i = 31) := by
  rw [show upperMask = BitVec.twoPow 32 31 by decide, BitVec.getLsbD_twoPow]
  simp [eq_comm]

/-- The word that TW shifts has bit 31 of a, and the other bits of b. -/
theorem getLsbD_twist_join (a b : Word) (i : Nat) :
    ((a &&& upperMask) ||| (b &&& lowerMask)).getLsbD i = if i = 31 then a.getLsbD i else b.getLsbD i := by
  rw [show lowerMask = ~~~upperMask by decide]
  simp only [BitVec.getLsbD_or, BitVec.getLsbD_and, BitVec.getLsbD_not, getLsbD_upperMask]
  split
  next h31 => simp [h31]
  next h31 =>
    have hb : b.getLsbD i = true → i < 32 := BitVec.lt_of_getLsbD
    simpa [h31] using hb

/-- The word c only adds to what a and b give. -/
theorem twistWord_eq_xor (a b c : Word) : twistWord a b c = c ^^^ twistWord a b 0 := by
  simp [twistWord, BitVec.xor_assoc]

/-- Settles O29: the word that is shifted is taken apart bit by bit; the examples are evaluated. -/
theorem oneWordTwistFacts : Obligations.OneWordTwistFacts := by
  unfold Obligations.OneWordTwistFacts
  refine ⟨fun a b c => ?_, by decide⟩
  have hjoin := getLsbD_twist_join a b
  rw [upperMask, lowerMask] at hjoin
  have hlow : ((a &&& 0x80000000) ||| (b &&& 0x7FFFFFFF)).getLsbD 0 = b.getLsbD 0 := hjoin 0
  refine ⟨?_, hlow, ?_, ?_, fun a' h => twistWord_congr_bit31 h b c⟩
  · rw [← hlow]
    rfl
  · exact (BitVec.getLsbD_ushiftRight ..).trans (BitVec.getLsbD_of_ge _ _ (by decide))
  · rw [BitVec.getLsbD_ushiftRight, hjoin, if_pos rfl]

/-! ### The array in the course of a twist (42_twist.md R130, R131) -/

section
variable (A : List Word)

/-- The first n steps write no word at n or above. -/
theorem word_foldl_twistStep_of_ge {n k : Nat} (h : n ≤ k) : word ((List.range n).foldl twistStep A) k = word A k := by
  induction n with
  | zero => rfl
  | succ n ih => rw [foldl_twistStep_succ, twistStep, word_set, if_neg (by omega), ih (by omega)]

/-- A word that has been rewritten is not written again. -/
theorem word_foldl_twistStep_of_lt {n m k : Nat} (hk : k < n) (h : n ≤ m) :
    word ((List.range m).foldl twistStep A) k = word ((List.range n).foldl twistStep A) k := by
  induction m, h using Nat.le_induction with
  | base => rfl
  | succ m hm ih => rw [foldl_twistStep_succ, twistStep, word_set, if_neg (by omega), ih]

/-- After n steps the words below n are the new ones and the others the old ones. -/
theorem word_foldl_twistStep {n : Nat} (hn : n ≤ 624) (k : Nat) :
    word ((List.range n).foldl twistStep A) k = word (if k < n then twist A else A) k := by
  split
  next hk => exact (word_foldl_twistStep_of_lt A hk hn).symm
  next hk => exact word_foldl_twistStep_of_ge A (Nat.not_lt.1 hk)

variable {A}

/-- Word k of the twist is written by step k, from the array as the k steps before it left it. -/
theorem word_twist (hA : A.length = 624) {k : Nat} (hk : k < 624) :
    word (twist A) k = twistWord (word A k) (word (if (k + 1) % 624 < k then twist A else A) ((k + 1) % 624))
      (word (if (k + 397) % 624 < k then twist A else A) ((k + 397) % 624)) := by
  have hstep : word (twist A) k = word ((List.range (k + 1)).foldl twistStep A) k :=
    word_foldl_twistStep_of_lt A (Nat.lt_succ_self k) hk
  rw [hstep, foldl_twistStep_succ, twistStep, word_set, if_pos ⟨rfl, by simpa [hA] using hk⟩,
    word_foldl_twistStep A hk.le k, if_neg (Nat.lt_irrefl k), word_foldl_twistStep A hk.le,
    word_foldl_twistStep A hk.le]

theorem threeSegments_twist (hA : A.length = 624) : ThreeSegments A (twist A) := by
  refine ⟨by rw [length_twist, hA], fun k hk => ?_, fun k hk1 hk2 => ?_, word_twist hA (by decide)⟩
  · have h := word_twist hA (k := k) (by omega)
    rwa [Nat.mod_eq_of_lt (by omega), Nat.mod_eq_of_lt (by omega), if_neg (by omega), if_neg (by omega)] at h
  · have h := word_twist hA (k := k) (by omega)
    rwa [Nat.mod_eq_of_lt (by omega), show (k + 397) % 624 = k - 227 by omega, if_neg (by omega),
      if_pos (by omega)] at h

end

/-- The three segments give every word from the old array and from new words at smaller indices. -/
theorem ThreeSegments.unique {O N M : List Word} (hN : ThreeSegments O N) (hM : ThreeSegments O M) : N = M := by
  obtain ⟨hNlen, hNlow, hNmid, hNlast⟩ := hN
  obtain ⟨hMlen, hMlow, hMmid, hMlast⟩ := hM
  have hword : ∀ k, k < 624 → N.getD k 0 = M.getD k 0 := fun k => by
    induction k using Nat.strong_induction_on with
    | _ k ih =>
      intro hk
      obtain h | h | rfl : k ≤ 226 ∨ (227 ≤ k ∧ k ≤ 622) ∨ k = 623 := by omega
      · rw [hNlow k h, hMlow k h]
      · obtain ⟨h1, h2⟩ := h
        rw [hNmid k h1 h2, hMmid k h1 h2, ih (k - 227) (by omega) (by omega)]
      · rw [hNlast, hMlast, ih 0 (by decide) (by decide), ih 396 (by decide) (by decide)]
  refine List.ext_getElem (hNlen.trans hMlen.symm) fun k hk hk' => ?_
  simpa [hk, hk'] using hword k (by omega)

theorem eq_twist_iff_threeSegments {O : List Word} (hO : O.length = 624) (N : List Word) :
    N = twist O ↔ ThreeSegments O N :=
  ⟨fun h => h ▸ threeSegments_twist hO, fun h => h.unique (threeSegments_twist hO)⟩

/-- Settles O28: step k reads word k + 1, and word k + 397 of the first segment, before they are rewritten, and the
other words after; the segments then determine the array. -/
theorem twistIsThreeSegments : Obligations.TwistIsThreeSegments := by
  unfold Obligations.TwistIsThreeSegments
  exact fun O N hO => eq_twist_iff_threeSegments hO N

/-! ### Arrays of zeros -/

theorem word_eq_zero_of_all_zero {A : List Word} (h : ∀ w ∈ A, w = 0) (k : Nat) : word A k = 0 := by
  rw [word, List.getD_eq_getElem?_getD]
  cases hk : A[k]? with
  | none => rfl
  | some w => exact h w (List.mem_of_getElem? hk)

/-! ### The orders that are not conforming (42_twist.md R136) -/

theorem word_twistAllOld (A : List Word) {k : Nat} (hk : k < 624) :
    word (twistAllOld A) k = twistWord (word A k) (word A ((k + 1) % 624)) (word A ((k + 397) % 624)) := by
  rw [twistAllOld, word, List.getD_eq_getElem _ _ (by simpa using hk), List.getElem_map, List.getElem_range]

theorem word_twistOldFirst_of_lt (A : List Word) {k : Nat} (hk : k < 623) :
    word (twistOldFirst A) k = word (twist A) k := by
  rw [twistOldFirst, word_set, if_neg (by omega), word_foldl_twistStep A (by decide), if_pos hk]

theorem word_twistOldFirst_last {A : List Word} (hA : A.length = 624) :
    word (twistOldFirst A) 623 = twistWord (word A 623) (word A 0) (word (twist A) 396) := by
  rw [twistOldFirst, word_set, if_pos ⟨rfl, by simp [hA]⟩, word_foldl_twistStep A (by decide),
    word_foldl_twistStep A (by decide), if_neg (by decide), if_pos (by decide)]

/-- An array whose only bit is the lowest of word 0. The twist does not read that bit there, and the two other orders
do: the first as word 227 + 397, the second as word 623 + 1, modulo 624. -/
def lowestBitOnly : List Word := 1 :: List.replicate 623 0

theorem length_lowestBitOnly : lowestBitOnly.length = 624 := by
  rw [lowestBitOnly, List.length_cons, List.length_replicate]

theorem word_lowestBitOnly_succ (k : Nat) : word lowestBitOnly (k + 1) = 0 :=
  word_eq_zero_of_all_zero (A := List.replicate 623 0) (fun _ => List.eq_of_mem_replicate) k

theorem word_twist_lowestBitOnly_zero : word (twist lowestBitOnly) 0 = 0 := by
  have h : word (twist lowestBitOnly) 0 = twistWord 1 (word lowestBitOnly 1) (word lowestBitOnly 397) :=
    word_twist length_lowestBitOnly (by decide)
  rw [h, word_lowestBitOnly_succ, word_lowestBitOnly_succ]
  decide

theorem twistAllOld_differs : word (twistAllOld lowestBitOnly) 227 ≠ word (twist lowestBitOnly) 227 := by
  have hold : word (twistAllOld lowestBitOnly) 227 =
      twistWord (word lowestBitOnly 227) (word lowestBitOnly 228) 1 := word_twistAllOld _ (by decide)
  have hnew : word (twist lowestBitOnly) 227 =
      twistWord (word lowestBitOnly 227) (word lowestBitOnly 228) (word (twist lowestBitOnly) 0) :=
    word_twist length_lowestBitOnly (by decide)
  rw [hold, hnew, word_twist_lowestBitOnly_zero, word_lowestBitOnly_succ, word_lowestBitOnly_succ]
  decide

theorem twistOldFirst_differs : word (twistOldFirst lowestBitOnly) 623 ≠ word (twist lowestBitOnly) 623 := by
  have hnew : word (twist lowestBitOnly) 623 = twistWord (word lowestBitOnly 623) (word (twist lowestBitOnly) 0)
      (word (twist lowestBitOnly) 396) := word_twist length_lowestBitOnly (by decide)
  rw [word_twistOldFirst_last length_lowestBitOnly, hnew, word_twist_lowestBitOnly_zero, word_lowestBitOnly_succ,
    show word lowestBitOnly 0 = 1 from rfl, twistWord_eq_xor, twistWord_eq_xor 0 0, ne_eq, BitVec.xor_right_inj]
  decide

/-- Settles O32: the words are compared where the orders read the same; word 0 of `lowestBitOnly` tells them apart. -/
theorem otherTwistOrdersDiffer : Obligations.OtherTwistOrdersDiffer := by
  unfold Obligations.OtherTwistOrdersDiffer
  refine ⟨fun A hA => ⟨fun k hk => ?_, fun k hk => word_twistOldFirst_of_lt A hk⟩,
    ⟨lowestBitOnly, length_lowestBitOnly, twistAllOld_differs⟩,
    ⟨lowestBitOnly, length_lowestBitOnly, twistOldFirst_differs⟩⟩
  have hold := word_twistAllOld A (k := k) (by omega)
  have hnew := word_twist hA (k := k) (by omega)
  rw [if_neg (by omega), if_neg (by omega)] at hnew
  exact hold.trans hnew.symm

/-! ### The all-zero state (42_twist.md R134) -/

/-- All-zero words obey the three segments with themselves, since TW(0, 0, 0) = 0. -/
theorem twist_all_zero {A : List Word} (hA : A.length = 624) (h : ∀ w ∈ A, w = 0) : twist A = A := by
  have hword : ∀ k, A.getD k 0 = 0 := word_eq_zero_of_all_zero h
  have hTW : twistWord 0 0 0 = 0 := by decide
  refine ((eq_twist_iff_threeSegments hA A).2 ⟨hA, fun k _ => ?_, fun k _ _ => ?_, ?_⟩).symm <;>
    simp only [hword, hTW]

/-- A NEXT on the all-zero array leaves it and answers 0, on both sides of CURSOR = 624. -/
theorem NextStream.advance_all_zero {g : NextStream} (hlen : g.mt.length = 624) (h : ∀ w ∈ g.mt, w = 0) :
    g.advance.mt = g.mt ∧ g.advance.out = 0 := by
  have hword := word_eq_zero_of_all_zero h
  have htemper : temper 0 = 0 := by decide
  unfold NextStream.advance
  split
  · exact ⟨rfl, by simp only [hword, htemper]⟩
  · simp only [twist_all_zero hlen h, hword, htemper, and_self]

theorem NextStream.iterate_advance_all_zero {g : NextStream} (hlen : g.mt.length = 624) (h : ∀ w ∈ g.mt, w = 0)
    (n : Nat) : (NextStream.advance^[n] g).mt = g.mt ∧ (1 ≤ n → (NextStream.advance^[n] g).out = 0) := by
  induction n with
  | zero => exact ⟨rfl, fun h1 => absurd h1 (by decide)⟩
  | succ n ih =>
    obtain ⟨hmt, -⟩ := ih
    obtain ⟨hmt', hout⟩ := NextStream.advance_all_zero (hmt ▸ hlen) (hmt ▸ h)
    rw [Function.iterate_succ_apply']
    exact ⟨hmt'.trans hmt, fun _ => hout⟩

/-- Settles O30: all-zero words are a fixed point of each NEXT, and TEMPER(0) = 0. -/
theorem allZeroStateStaysZero : Obligations.AllZeroStateStaysZero := by
  unfold Obligations.AllZeroStateStaysZero
  intro A hA hzero
  refine ⟨twist_all_zero hA hzero, fun s n hb hs hm => ?_⟩
  have hstands : StandsAt { mt := A, cursor := s.cursor, out := s.out } s :=
    ⟨hs, (mtArray_eq_some_iff s A).2 ⟨hm, hA⟩, rfl, rfl⟩
  obtain ⟨t, ht, -, htstands⟩ := hstands.nextTimes_advances hb n
  obtain ⟨hmt, hout⟩ := NextStream.iterate_advance_all_zero (g := { mt := A, cursor := s.cursor, out := s.out })
    hA hzero n
  obtain ⟨hwords, -⟩ := (mtArray_eq_some_iff t _).1 htstands.written
  exact ⟨t, ht, hwords.trans (congrArg _ hmt), fun h1 => htstands.out.trans (hout h1)⟩

/-! ### The generations of one sequence (42_twist.md R135) -/

section
variable {x : Nat → Word}

theorem IsTwistSequence.eq_twistWord (hx : IsTwistSequence x) (n : Nat) :
    x (n + 624) = twistWord (x n) (x (n + 1)) (x (n + 397)) := by
  rw [hx n, twistWord, BitVec.xor_assoc]
  rfl

/-- The 624 terms of the sequence from index m on. -/
def window (x : Nat → Word) (m : Nat) : List Word := (List.range 624).map fun k => x (m + k)

theorem length_window (x : Nat → Word) (m : Nat) : (window x m).length = 624 := by
  rw [window, List.length_map, List.length_range]

theorem getD_window (x : Nat → Word) (m : Nat) {k : Nat} (hk : k < 624) : (window x m).getD k 0 = x (m + k) := by
  rw [window, List.getD_eq_getElem _ _ (by simpa using hk), List.getElem_map, List.getElem_range]

theorem eq_window_zero {A : List Word} (hA : A.length = 624) (hstart : ∀ k, k < 624 → x k = A.getD k 0) :
    A = window x 0 := by
  refine List.ext_getElem (hA.trans (length_window x 0).symm) fun k hk hk' => ?_
  have h : A.getD k 0 = (window x 0).getD k 0 := by
    rw [getD_window x 0 (by omega), Nat.zero_add, hstart k (by omega)]
  simpa [hk, hk'] using h

/-- A twist moves the window on by 624 terms: the two windows obey the three segments. -/
theorem IsTwistSequence.twist_window (hx : IsTwistSequence x) (m : Nat) : twist (window x m) = window x (m + 624) := by
  refine ((eq_twist_iff_threeSegments (length_window x m) _).2
    ⟨length_window x _, fun k hk => ?_, fun k hk1 hk2 => ?_, ?_⟩).symm
  · simp (disch := omega) only [getD_window]
    rw [Nat.add_right_comm, hx.eq_twistWord, Nat.add_assoc, Nat.add_assoc]
  · simp (disch := omega) only [getD_window]
    rw [Nat.add_right_comm, hx.eq_twistWord, Nat.add_assoc, show m + 624 + (k - 227) = m + k + 397 by omega]
  · simp (disch := omega) only [getD_window]
    rw [Nat.add_right_comm, hx.eq_twistWord]

theorem IsTwistSequence.iterate_twist_window (hx : IsTwistSequence x) (g : Nat) :
    twist^[g] (window x 0) = window x (624 * g) := by
  induction g with
  | zero => rfl
  | succ g ih => rw [Function.iterate_succ_apply', ih, hx.twist_window, Nat.mul_succ]

/-- A term depends on the term 624 before it through bit 31 alone, so of x[0] the rest is lost. -/
theorem IsTwistSequence.eq_of_bit31 {x' : Nat → Word} (hx : IsTwistSequence x) (hx' : IsTwistSequence x')
    (h31 : (x' 0).getLsbD 31 = (x 0).getLsbD 31) (hstart : ∀ k, 1 ≤ k → k < 624 → x' k = x k) (n : Nat) (hn : 1 ≤ n) :
    x' n = x n := by
  induction n using Nat.strong_induction_on with
  | _ n ih =>
    by_cases hlt : n < 624
    · exact hstart n hn hlt
    · obtain ⟨m, rfl⟩ := Nat.exists_eq_add_of_le' (Nat.not_lt.1 hlt)
      have hbit : (x' m).getLsbD 31 = (x m).getLsbD 31 := by
        cases m with
        | zero => exact h31
        | succ m => rw [ih (m + 1) (by omega) (by omega)]
      rw [hx.eq_twistWord, hx'.eq_twistWord, ih (m + 1) (by omega) (by omega), ih (m + 397) (by omega) (by omega),
        twistWord_congr_bit31 hbit]

end

/-! ### The number of twists since seeding (42_twist.md R132, 43_extract.md R151) -/

/-- After c NEXT commands from CURSOR = 624 the array has been twisted c / 624 times, rounded up, and CURSOR counts
the NEXT commands since the last twist. -/
theorem NextStream.iterate_advance_exhausted (A : List Word) (w : Word) (c : Nat) :
    (NextStream.advance^[c] { mt := A, cursor := 624, out := w }).mt = twist^[(c + 623) / 624] A ∧
    (NextStream.advance^[c] { mt := A, cursor := 624, out := w }).cursor.toNat + 624 * ((c + 623) / 624) = c + 624 := by
  induction c with
  | zero => exact ⟨rfl, rfl⟩
  | succ c ih =>
    obtain ⟨hmt, hcursor⟩ := ih
    rw [Function.iterate_succ_apply']
    generalize NextStream.advance^[c] { mt := A, cursor := 624, out := w } = g at hmt hcursor
    unfold NextStream.advance
    split
    next hlt =>
      have hsame : (c + 1 + 623) / 624 = (c + 623) / 624 := by omega
      have hnext : (g.cursor + 1).toNat = g.cursor.toNat + 1 := by bv_omega
      exact ⟨hsame ▸ hmt, by rw [hnext, hsame]; omega⟩
    next hge =>
      have hmore : (c + 1 + 623) / 624 = (c + 623) / 624 + 1 := by omega
      have hone : (1 : BitVec 10).toNat = 1 := rfl
      exact ⟨by rw [hmore, Function.iterate_succ_apply', hmt], by rw [hmore, hone]; omega⟩

/-- TWISTS counts the NEXT commands that begin at CURSOR = 624 or above. -/
theorem runCommand_next_twists {s t : State} (hb : s.busy = false) (hs : s.seeded = true)
    (h : runCommand .next s = .next t) : t.twists = s.twists + if s.cursor.toNat < 624 then 0 else 1 := by
  have hx : exec .next (s.accept .next) = .next t := by
    simpa [runCommand, exec_next_idle_seeded hb hs] using h
  obtain ⟨hi, _⟩ | ⟨_, hlt, w, rfl⟩ | ⟨_, hge, A, w, _, rfl⟩ | ⟨hi, _⟩ := exec_busy_cases rfl hx
  · simp at hi
  · rw [State.accept_cursor] at hlt
    simp [hlt]
  · rw [State.accept_cursor] at hge
    simp [Nat.not_lt.2 hge]
  · simp at hi

section
variable {A : List Word} {s u : State} {c : Nat}

theorem JustSeeded.standsAt (h : JustSeeded A s) : StandsAt { mt := A, cursor := 624, out := s.out } s :=
  ⟨h.seeded, (mtArray_eq_some_iff s A).2 ⟨h.words, h.length⟩, h.exhausted, rfl⟩

/-- After c NEXT commands since seeding the block is idle and stands c places further in its stream. -/
theorem JustSeeded.standsAt_of_nextTimes (h : JustSeeded A s) (hu : nextTimes c s = .next u) :
    u.busy = false ∧ StandsAt (NextStream.advance^[c] { mt := A, cursor := 624, out := s.out }) u := by
  obtain ⟨t, ht, hb, hstands⟩ := h.standsAt.nextTimes_advances h.idle c
  obtain rfl : t = u := Host.Outcome.next.inj (ht.symm.trans hu)
  exact ⟨hb, hstands⟩

theorem JustSeeded.mt_of_nextTimes (h : JustSeeded A s) (hu : nextTimes c s = .next u) :
    u.mt = (twist^[(c + 623) / 624] A).map some := by
  obtain ⟨-, hstands⟩ := h.standsAt_of_nextTimes hu
  obtain ⟨hwords, -⟩ := (mtArray_eq_some_iff u _).1 hstands.written
  rw [hwords, (NextStream.iterate_advance_exhausted A s.out c).1]

theorem JustSeeded.cursor_of_nextTimes (h : JustSeeded A s) (hu : nextTimes c s = .next u) :
    u.cursor.toNat + 624 * ((c + 623) / 624) = c + 624 := by
  obtain ⟨-, hstands⟩ := h.standsAt_of_nextTimes hu
  rw [hstands.cursor, (NextStream.iterate_advance_exhausted A s.out c).2]

/-- TWISTS goes up exactly at the NEXT commands at which c / 624, rounded up, does. -/
theorem JustSeeded.twists_of_nextTimes (h : JustSeeded A s) (hu : nextTimes c s = .next u) :
    u.twists = BitVec.ofNat 32 ((c + 623) / 624) := by
  induction c generalizing u with
  | zero =>
    obtain rfl : s = u := Host.Outcome.next.inj hu
    exact h.counter
  | succ c ih =>
    obtain ⟨v, hv, hrun⟩ := andThen_eq_next.1 hu
    obtain ⟨hb, hstands⟩ := h.standsAt_of_nextTimes hv
    have hcursor := h.cursor_of_nextTimes hv
    rw [runCommand_next_twists hb hstands.seeded hrun, ih hv]
    split
    next hlt => rw [show (c + 1 + 623) / 624 = (c + 623) / 624 by omega, add_zero]
    next hge => rw [show (c + 1 + 623) / 624 = (c + 623) / 624 + 1 by omega, BitVec.ofNat_add]; rfl

end

/-- Settles O31: the seeded array is the sequence's first window, each twist moves the window on, and the twists since
seeding are counted by induction on the NEXT commands. -/
theorem generationsAreOneSequence : Obligations.GenerationsAreOneSequence := by
  unfold Obligations.GenerationsAreOneSequence
  intro A x hA hstart hx
  refine ⟨fun g k hk => ?_, fun s u c hs hu => ⟨hs.mt_of_nextTimes hu, hs.twists_of_nextTimes hu⟩,
    fun x' hx' h31 hsame => hx.eq_of_bit31 hx' h31 hsame⟩
  rw [eq_window_zero hA hstart, hx.iterate_twist_window, getD_window x _ hk]

end Sys2Proof.Machine

/-! ## Extraction (43_extract.md) -/

namespace Sys2Proof.Machine

/-! ### TEMPER and its four steps (43_extract.md R150, R154) -/

/-- Bit p of f(y) depends only on the bits q of y with r q p. -/
def BitsFrom (r : Nat → Nat → Prop) (f : Word → Word) : Prop :=
  ∀ (y z : Word) (p : Nat), (∀ q, r q p → y.getLsbD q = z.getLsbD q) → (f y).getLsbD p = (f z).getLsbD p

/-- R154's argument: y ^ f(y) determines bit p of y once it determines the bits on which bit p of f(y) depends. -/
theorem BitsFrom.xor_injective {r : Nat → Nat → Prop} {f : Word → Word} (hf : BitsFrom r f)
    (hr : WellFounded fun q p : Fin 32 => r q p) : Function.Injective fun y => y ^^^ f y := by
  intro y z h
  have hbit : ∀ p : Fin 32, y.getLsbD p = z.getLsbD p := fun p => by
    induction p using hr.induction with
    | _ p ih =>
      have hadded : (f y).getLsbD p = (f z).getLsbD p := hf y z p fun q hq => by
        by_cases hlt : q < 32
        · exact ih ⟨q, hlt⟩ hq
        · rw [BitVec.getLsbD_of_ge y q (Nat.not_lt.1 hlt), BitVec.getLsbD_of_ge z q (Nat.not_lt.1 hlt)]
      have hsum : (y ^^^ f y).getLsbD p = (z ^^^ f z).getLsbD p := congrArg (BitVec.getLsbD · p) h
      rwa [BitVec.getLsbD_xor, BitVec.getLsbD_xor, hadded, Bool.xor_left_inj] at hsum
  exact BitVec.eq_of_getLsbD_eq fun i hi => hbit ⟨i, hi⟩

/-- The step y ^ ((y >> k) & m). -/
def rightStep (k : Nat) (m y : Word) : Word := y ^^^ ((y >>> k) &&& m)

/-- The step y ^ ((y << k) & m). -/
def leftStep (k : Nat) (m y : Word) : Word := y ^^^ ((y <<< k) &&& m)

section
variable {k : Nat} (hk : 1 ≤ k) (m : Word)
include hk

theorem bitsFrom_above_shiftRight : BitsFrom (fun q p => p < q) fun y => (y >>> k) &&& m := fun y z p h => by
  simp only [BitVec.getLsbD_and, BitVec.getLsbD_ushiftRight]
  rw [h (k + p) (by omega)]

theorem bitsFrom_below_shiftLeft : BitsFrom (fun q p => q < p) fun y => (y <<< k) &&& m := fun y z p h => by
  simp only [BitVec.getLsbD_and, BitVec.getLsbD_shiftLeft]
  by_cases hp : p < k
  · simp [hp]
  · rw [h (p - k) (by omega)]

theorem rightStep_bijective : Function.Bijective (rightStep k m) :=
  Finite.injective_iff_bijective.1 ((bitsFrom_above_shiftRight hk m).xor_injective wellFounded_gt)

theorem leftStep_bijective : Function.Bijective (leftStep k m) :=
  Finite.injective_iff_bijective.1 ((bitsFrom_below_shiftLeft hk m).xor_injective wellFounded_lt)

end

/-- The first and the last step of TEMPER have no mask, which is the mask of all ones. -/
theorem temper_eq_steps (y : Word) : temper y =
    rightStep 18 0xFFFFFFFF (leftStep 15 0xEFC60000 (leftStep 7 0x9D2C5680 (rightStep 11 0xFFFFFFFF y))) := by
  have hones : ∀ w : Word, w &&& 0xFFFFFFFF = w := fun _ => BitVec.and_allOnes
  simp only [rightStep, leftStep, hones, temper, temperB, temperC]

theorem temper_bijective : Function.Bijective temper := by
  rw [funext temper_eq_steps]
  exact (rightStep_bijective (by decide) _).comp <| (leftStep_bijective (by decide) _).comp <|
    (leftStep_bijective (by decide) _).comp <| rightStep_bijective (by decide) _

/-- Settles O33: each of the four steps is injective bit by bit, from the top or from the bottom, and TEMPER(0) = 0. -/
theorem temperIsBijective : Obligations.TemperIsBijective := by
  unfold Obligations.TemperIsBijective
  have hzero : temper 0 = 0 := by decide
  exact ⟨temper_bijective, fun y => temper_bijective.injective.eq_iff' hzero, temper_eq_steps,
    fun k m hk => ⟨rightStep_bijective hk m, leftStep_bijective hk m,
      fun y z p => ⟨bitsFrom_above_shiftRight hk m y z p, bitsFrom_below_shiftLeft hk m y z p⟩⟩⟩

/-! ### NEXT on a written state array (43_extract.md R151) -/

theorem extract_of_words {s : State} {A : List Word} (hm : s.mt = A.map some) (hc : s.cursor.toNat < A.length) :
    extract s = .next (s.extracted (temper (word A s.cursor.toNat))) := by
  rw [extract, mtWord_of_words hm hc]

theorem performNext_of_cursor_lt {s : State} {A : List Word} (hm : s.mt = A.map some) (hA : A.length = 624)
    (hc : s.cursor.toNat < 624) : performNext s = .next (s.extracted (temper (word A s.cursor.toNat))) := by
  rw [performNext, if_neg (Nat.not_le.2 hc), extract_of_words hm (hA ▸ hc)]

theorem performNext_of_cursor_ge {s : State} {A : List Word} (hm : s.mt = A.map some) (hA : A.length = 624)
    (hc : 624 ≤ s.cursor.toNat) :
    performNext s = .next ((s.afterTwist (twist A)).extracted (temper (word (twist A) 0))) := by
  have hfirst : (s.afterTwist (twist A)).cursor.toNat < (twist A).length := by
    rw [length_twist, hA, State.afterTwist_cursor]
    decide
  rw [performNext, if_pos hc, (mtArray_eq_some_iff s A).2 ⟨hm, hA⟩]
  exact extract_of_words (State.afterTwist_mt _ s) hfirst

/-- Settles O16: the completion is PerformNEXT, on either side of CURSOR = 624. -/
theorem nextCompletes : Obligations.NextCompletes := by
  unfold Obligations.NextCompletes
  intro s A hb hm hA
  rw [exec_next_busy hb]
  split
  next hlt => rw [performNext_of_cursor_lt hm hA hlt, andThen_next, State.extracted, State.complete, word]
  next hge =>
    rw [performNext_of_cursor_ge hm hA (Nat.not_lt.1 hge), andThen_next, State.extracted, State.afterTwist,
      State.complete, word, zero_add]

/-! ### The stream of NEXT after a seeding (43_extract.md R152, R153) -/

/-- A NEXT returns the word of the array just before the CURSOR that it leaves. -/
theorem NextStream.advance_out (g : NextStream) :
    g.advance.out = temper (word g.advance.mt (g.advance.cursor.toNat - 1)) := by
  unfold NextStream.advance
  split
  next hlt =>
    have hback : (g.cursor + 1).toNat - 1 = g.cursor.toNat := by bv_omega
    rw [hback]
  next =>
    have hfirst : (1 : BitVec 10).toNat - 1 = 0 := rfl
    rw [hfirst]

theorem justSeeded_loadSeeded {A : List Word} (hA : A.length = 624) (o : DWord) (b : Bool) (s : State) :
    JustSeeded A (s.loadSeeded A o b).complete := ⟨rfl, rfl, rfl, rfl, rfl, hA⟩

/-- After SEED the array is that of SEED_LO (41_seeding.md R103). -/
theorem justSeeded_of_exec_seed {s t : State} (hb : s.busy = true) (h : exec .seed s = .next t) :
    JustSeeded (initInt s.config.intSeedAlg s.seedLo) t := by
  rw [exec_seed_busy hb, performSeed_eq, Host.Outcome.next.injEq] at h
  exact h ▸ justSeeded_loadSeeded (length_initInt _ _) _ _ s

/-- After SEEDA the array is that of the key (41_seeding.md R110). -/
theorem justSeeded_of_exec_seeda {s t : State} {key : List Word} (hb : s.busy = true) (h : exec .seeda s = .next t)
    (hkey : keyOperand s = .ok key) : JustSeeded (initArray key) t := by
  obtain ⟨hidle, -⟩ | ⟨hidle, -⟩ | ⟨-, -, key', hkey', rfl⟩ := execSeeda_cases h
  · simp [hb] at hidle
  · simp [hb] at hidle
  · obtain rfl : key = key' := Except.ok.inj (hkey.symm.trans hkey')
    exact justSeeded_loadSeeded (length_initArray _) _ _ s

/-- The generations of the seeded array are the windows of its sequence. -/
theorem IsTwistSequence.iterate_twist {x : Nat → Word} {A : List Word} (hx : IsTwistSequence x) (hA : A.length = 624)
    (hstart : ∀ k, k < 624 → x k = A.getD k 0) (g : Nat) : twist^[g] A = window x (624 * g) := by
  rw [eq_window_zero hA hstart, hx.iterate_twist_window]

/-- NEXT number n + 1 reads term 624 + n of the seeded array's sequence: the term is in the last generation, just
before CURSOR. -/
theorem JustSeeded.out_of_nextTimes {A : List Word} {s u : State} {n : Nat} {x : Nat → Word} (h : JustSeeded A s)
    (hstart : ∀ k, k < 624 → x k = A.getD k 0) (hx : IsTwistSequence x) (hu : nextTimes (n + 1) s = .next u) :
    u.out = temper (x (624 + n)) := by
  obtain ⟨-, hstands⟩ := h.standsAt_of_nextTimes hu
  obtain ⟨hmt, hcursor⟩ := NextStream.iterate_advance_exhausted A s.out (n + 1)
  rw [hx.iterate_twist h.length hstart] at hmt
  rw [hstands.out]
  rw [Function.iterate_succ_apply'] at hmt hcursor ⊢
  rw [NextStream.advance_out, hmt, word, getD_window x _ (by omega)]
  congr 2
  omega

/-- n / 624, rounded up, goes up by one at n + 1 exactly when n + 1 begins a generation. -/
theorem generations_succ (n : Nat) :
    (n + 1 + 623) / 624 = (n + 623) / 624 + if (n + 1) % 624 = 1 then 1 else 0 := by
  split <;> omega

/-- Settles O34: the block is just seeded, so TWISTS, CURSOR and MT are those of the generations since, and OUT is the
term just before CURSOR. -/
theorem nextStreamAfterSeeding : Obligations.NextStreamAfterSeeding := by
  unfold Obligations.NextStreamAfterSeeding
  intro s t A x hb hseeding hstart hx c hc
  have ht : JustSeeded A t := by
    obtain ⟨h, hA⟩ | ⟨h, key, hkey, hA⟩ := hseeding
    · exact hA ▸ justSeeded_of_exec_seed hb h
    · exact hA ▸ justSeeded_of_exec_seeda hb h hkey
  obtain ⟨n, rfl⟩ := Nat.exists_eq_add_of_le' hc
  obtain ⟨v, hv, -⟩ := ht.standsAt.nextTimes_advances ht.idle n
  obtain ⟨u, hu, -⟩ := ht.standsAt.nextTimes_advances ht.idle (n + 1)
  have hcursor := ht.cursor_of_nextTimes hu
  refine ⟨u, hu, ?_, by omega, ?_, v, hv, ?_, fun hne => ?_⟩
  · rw [ht.out_of_nextTimes hstart hx hu, show 623 + (n + 1) = 624 + n by omega]
  · rw [ht.twists_of_nextTimes hu, Nat.add_sub_cancel, show (n + 1 + 623) / 624 = n / 624 + 1 by omega]
  · rw [ht.twists_of_nextTimes hu, ht.twists_of_nextTimes hv, generations_succ, BitVec.ofNat_add]
    split <;> simp [*]
  · by_contra hmod
    rw [ht.mt_of_nextTimes hu, ht.mt_of_nextTimes hv, generations_succ, if_neg hmod] at hne
    exact hne rfl

end Sys2Proof.Machine

/-! ## The control command CLRERR (44_control.md) -/

namespace Sys2Proof.Machine

theorem exec_clrerr_busy {s : State} (hb : s.busy = true) : exec .clrerr s = .next s.clearErr.complete := if_pos hb

theorem exec_clrerr_idle {s : State} (hb : s.busy = false) : exec .clrerr s = .next (s.accept .clrerr) :=
  exec_idle_accepted hb nofun nofun

/-- An accepted command has set BUSY, so the run goes on to its completion. -/
theorem runCommand_of_accepted {i : Instr} {s : State} (h : exec i s = .next (s.accept i)) :
    runCommand i s = exec i (s.accept i) := by
  rw [runCommand, h, andThen_next, if_pos (State.accept_busy i s)]

/-- Acceptance and completion in a row bring BUSY back to the 0 it had. -/
theorem State.accept_clearErr_complete {s : State} (hb : s.busy = false) (i : Instr) :
    (s.accept i).clearErr.complete = { s with err := .noError, pending := none } := by
  rw [State.accept, State.clearErr, State.complete, hb]

/-- Settles O17: CLRERR has no check of its own, so an idle block accepts it, and its completion is PerformCLRERR; a
write to CMD on a busy block is refused before its word is decoded. -/
theorem clrerrClearsError : Obligations.ClrerrClearsError := by
  unfold Obligations.ClrerrClearsError
  refine ⟨rfl, by decide, by decide, fun s => ⟨exec_clrerr_busy, exec_clrerr_idle, fun hb => ?_, fun hb => ?_⟩⟩
  · exact (hostWrite_cmd 4 s).trans (issueCommand_busy hb 4)
  · rw [runCommand_of_accepted (exec_clrerr_idle hb), exec_clrerr_busy (State.accept_busy .clrerr s),
      State.accept_clearErr_complete hb]

end Sys2Proof.Machine

/-! ## The Host's float mapping (45_host_float.md) -/

namespace Sys2Proof.Machine

/-! ### Rounding to the nearest natural number -/

section
variable {n d m : Nat}

/-- The rounded quotient is the quotient rounded down or the next number, whichever is nearer. -/
theorem roundHalfEven_cases (n d : Nat) :
    (roundHalfEven n d = n / d ∧ 2 * (n % d) ≤ d) ∨ (roundHalfEven n d = n / d + 1 ∧ d ≤ 2 * (n % d)) := by
  unfold roundHalfEven
  dsimp only
  split
  next hup => exact .inr ⟨rfl, by omega⟩
  next hdown => exact .inl ⟨rfl, by omega⟩

/-- The rounded quotient is within a half of the quotient. -/
theorem roundHalfEven_nearest (hd : 0 < d) (n : Nat) :
    2 * (roundHalfEven n d * d) ≤ 2 * n + d ∧ 2 * n ≤ 2 * (roundHalfEven n d * d) + d := by
  have hdiv := Nat.div_add_mod' n d
  have hmod := Nat.mod_lt n hd
  obtain ⟨hq, hrem⟩ | ⟨hq, hrem⟩ := roundHalfEven_cases n d
  · rw [hq]
    omega
  · rw [hq, Nat.add_one_mul (n / d) d]
    omega

theorem le_roundHalfEven (hd : 0 < d) (h : m * d ≤ n) : m ≤ roundHalfEven n d := by
  have hm : m ≤ n / d := (Nat.le_div_iff_mul_le hd).2 h
  obtain ⟨hq, _⟩ | ⟨hq, _⟩ := roundHalfEven_cases n d <;> omega

theorem roundHalfEven_le (hd : 0 < d) (h : n ≤ m * d) : roundHalfEven n d ≤ m := by
  by_contra hlt
  have hmul : (m + 1) * d ≤ roundHalfEven n d * d := Nat.mul_le_mul_right d (Nat.not_le.1 hlt)
  have hnear := (roundHalfEven_nearest hd n).1
  rw [Nat.add_one_mul] at hmul
  omega

/-- What needs no rounding is exact. -/
theorem roundHalfEven_mul (hd : 0 < d) (m : Nat) : roundHalfEven (m * d) d = m :=
  Nat.le_antisymm (roundHalfEven_le hd le_rfl) (le_roundHalfEven hd le_rfl)

end

/-! ### The exponent -/

/-- Doubled as often as the exponent says, num is den to 2 * den. -/
theorem leadingExponent_spec {den : Nat} (fuel : Nat) {num : Nat} (hle : num ≤ 2 * den)
    (hfuel : den ≤ num * 2 ^ fuel) :
    leadingExponent num den fuel ≤ fuel ∧ den ≤ num * 2 ^ leadingExponent num den fuel ∧
      num * 2 ^ leadingExponent num den fuel ≤ 2 * den := by
  induction fuel generalizing num with
  | zero => exact ⟨le_rfl, hfuel, by rwa [leadingExponent, pow_zero, mul_one]⟩
  | succ fuel ih =>
    have hdouble (k : Nat) : 2 * num * 2 ^ k = num * 2 ^ (k + 1) := by ring
    unfold leadingExponent
    split
    next hge => exact ⟨Nat.zero_le _, by omega, by omega⟩
    next hlt =>
      obtain ⟨hexp, hlow, hhigh⟩ := ih (num := 2 * num) (by omega) (by rwa [hdouble])
      rw [hdouble] at hlow hhigh
      exact ⟨Nat.succ_le_succ hexp, hlow, hhigh⟩

/-! ### The fields of a pattern -/

section
variable {E f : Nat}

theorem exponentField_pattern (hE : E < 2 ^ 11) (hf : f < 2 ^ 52) :
    ((BitVec.ofNat 64 (E * 2 ^ 52 + f)).extractLsb' 52 11).toNat = E := by
  rw [BitVec.extractLsb'_toNat, BitVec.toNat_ofNat, Nat.shiftRight_eq_div_pow]
  omega

theorem fractionField_pattern (hf : f < 2 ^ 52) :
    ((BitVec.ofNat 64 (E * 2 ^ 52 + f)).extractLsb' 0 52).toNat = f := by
  rw [BitVec.extractLsb'_toNat, BitVec.toNat_ofNat, Nat.shiftRight_zero]
  omega

theorem signBit_pattern (hE : E < 2 ^ 11) (hf : f < 2 ^ 52) :
    (BitVec.ofNat 64 (E * 2 ^ 52 + f)).getLsbD 63 = false := by
  rw [BitVec.getLsbD_ofNat, Nat.testBit_lt_two_pow (by omega), Bool.and_false]

theorem scaledValue_pattern (h0 : E ≠ 0) (hE : E < 2 ^ 11) (hf : f < 2 ^ 52) :
    scaledValue (BitVec.ofNat 64 (E * 2 ^ 52 + f)) = 2 ^ E * (2 ^ 52 + f) := by
  rw [scaledValue, exponentField_pattern hE hf, fractionField_pattern hf, if_neg h0]

end

/-! ### The pattern of num / den -/

/-- The scale of a significand at the exponent e, times that of its numerator, is the 2^1075 of `scaledValue`. -/
theorem scale_mul_shifted_numerator {e : Nat} (he : e ≤ 63) (num : Nat) :
    2 ^ (1023 - e) * (num * 2 ^ (52 + e)) = num * 2 ^ 1075 := by
  rw [Nat.mul_left_comm, ← pow_add, show 1023 - e + (52 + e) = 1075 by omega]

/-- The significand of num / den, rounded to 53 bits. -/
def significand (num den : Nat) : Nat := roundHalfEven (num * 2 ^ (52 + leadingExponent num den 63)) den

theorem binary64_zero (den : Nat) : binary64 0 den = 0 := if_pos rfl

theorem scaledValue_binary64_zero (den : Nat) : scaledValue (binary64 0 den) = 0 := by
  rw [binary64_zero]
  rfl

section
variable {num den : Nat} (hpos : 0 < num) (hle : num ≤ den) (hden : den ≤ 2 ^ 63)
include hpos hle hden

theorem exponent_spec : leadingExponent num den 63 ≤ 63 ∧ den ≤ num * 2 ^ leadingExponent num den 63 ∧
    num * 2 ^ leadingExponent num den 63 ≤ 2 * den :=
  leadingExponent_spec 63 (by omega) (by omega)

theorem significand_range : 2 ^ 52 ≤ significand num den ∧ significand num den ≤ 2 ^ 53 := by
  obtain ⟨-, hlow, hhigh⟩ := exponent_spec hpos hle hden
  have hnum : num * 2 ^ (52 + leadingExponent num den 63) = 2 ^ 52 * (num * 2 ^ leadingExponent num den 63) := by ring
  rw [significand, hnum]
  exact ⟨le_roundHalfEven (by omega) (Nat.mul_le_mul_left _ hlow), roundHalfEven_le (by omega) (by omega)⟩

/-- The pattern has the exponent and the fraction of the rounded significand; a significand of 2^53 carries into the
exponent. -/
theorem binary64_fields : ∃ E f, binary64 num den = BitVec.ofNat 64 (E * 2 ^ 52 + f) ∧ f < 2 ^ 52 ∧
    1023 - leadingExponent num den 63 ≤ E ∧ E ≠ 0 ∧ E < 2 ^ 11 ∧
    2 ^ E * (2 ^ 52 + f) = 2 ^ (1023 - leadingExponent num den 63) * significand num den := by
  obtain ⟨hlow, hhigh⟩ := significand_range hpos hle hden
  have he := (exponent_spec hpos hle hden).1
  have hbits : binary64 num den =
      BitVec.ofNat 64 ((1022 - leadingExponent num den 63) * 2 ^ 52 + significand num den) := if_neg hpos.ne'
  rw [hbits]
  generalize leadingExponent num den 63 = e at he ⊢
  obtain hlt | hcarry := Nat.lt_or_eq_of_le hhigh
  · obtain ⟨f, hf⟩ := Nat.exists_eq_add_of_le hlow
    rw [hf] at hlt ⊢
    exact ⟨1023 - e, f, congrArg (BitVec.ofNat 64) (by omega), by omega, le_rfl, by omega, by omega, rfl⟩
  · have hexp : 1024 - e = 1023 - e + 1 := by omega
    rw [hcarry]
    exact ⟨1024 - e, 0, congrArg (BitVec.ofNat 64) (by omega), by omega, by omega, by omega, by omega,
      by rw [hexp, pow_succ]; ring⟩

/-- Read back, the pattern is the rounded significand at the exponent. -/
theorem scaledValue_binary64 :
    scaledValue (binary64 num den) = 2 ^ (1023 - leadingExponent num den 63) * significand num den := by
  obtain ⟨E, f, hbits, hf, -, h0, hE, hval⟩ := binary64_fields hpos hle hden
  rw [hbits, scaledValue_pattern h0 hE hf, hval]

/-- The last place of the pattern is not below a step of the significand. -/
theorem significand_step_le_ulp :
    2 ^ (1023 - leadingExponent num den 63) ≤ 2 ^ ((binary64 num den).extractLsb' 52 11).toNat := by
  obtain ⟨E, f, hbits, hf, hulp, -, hE, -⟩ := binary64_fields hpos hle hden
  rw [hbits, exponentField_pattern hE hf]
  exact Nat.pow_le_pow_right (by omega) hulp

end

section
variable {num den : Nat} (hle : num ≤ den) (hden : den ≤ 2 ^ 63)
include hle hden

theorem signBit_binary64 : (binary64 num den).getLsbD 63 = false := by
  obtain rfl | hpos := Nat.eq_zero_or_pos num
  · rw [binary64_zero]
    rfl
  · obtain ⟨E, f, hbits, hf, -, -, hE, -⟩ := binary64_fields hpos hle hden
    rw [hbits, signBit_pattern hE hf]

theorem scaledValue_binary64_le_one : scaledValue (binary64 num den) ≤ 2 ^ 1075 := by
  obtain rfl | hpos := Nat.eq_zero_or_pos num
  · rw [scaledValue_binary64_zero]
    exact Nat.zero_le _
  · rw [scaledValue_binary64 hpos hle hden, ← Nat.one_mul (2 ^ 1075),
      ← scale_mul_shifted_numerator (exponent_spec hpos hle hden).1, Nat.one_mul]
    refine Nat.mul_le_mul_left _ (roundHalfEven_le (by omega) ?_)
    rw [Nat.mul_comm]
    exact Nat.mul_le_mul_left _ hle

/-- The pattern is within half a unit in the last place of num / den. -/
theorem binary64_nearest :
    2 * (scaledValue (binary64 num den) * den) ≤
        2 * (num * 2 ^ 1075) + 2 ^ ((binary64 num den).extractLsb' 52 11).toNat * den ∧
      2 * (num * 2 ^ 1075) ≤ 2 * (scaledValue (binary64 num den) * den) +
        2 ^ ((binary64 num den).extractLsb' 52 11).toNat * den := by
  obtain rfl | hpos := Nat.eq_zero_or_pos num
  · rw [scaledValue_binary64_zero, Nat.zero_mul, Nat.zero_mul]
    exact ⟨Nat.zero_le _, Nat.zero_le _⟩
  · have hulp := Nat.mul_le_mul_right den (significand_step_le_ulp hpos hle hden)
    have hscale := scale_mul_shifted_numerator (exponent_spec hpos hle hden).1 num
    obtain ⟨hhigh, hlow⟩ :=
      roundHalfEven_nearest (hpos.trans_le hle) (num * 2 ^ (52 + leadingExponent num den 63))
    rw [scaledValue_binary64 hpos hle hden, ← hscale]
    rw [← significand] at hhigh hlow
    generalize 2 ^ (1023 - leadingExponent num den 63) = step at hulp ⊢
    have hhigh' := Nat.mul_le_mul_left step hhigh
    have hlow' := Nat.mul_le_mul_left step hlow
    constructor <;> linarith

end

/-! ### num / 2^k, which needs no rounding -/

section
variable {num k : Nat} (hk : k ≤ 52)
include hk

theorem scaledValue_binary64_two_pow (hle : num ≤ 2 ^ k) :
    scaledValue (binary64 num (2 ^ k)) = num * 2 ^ (1075 - k) := by
  obtain rfl | hpos := Nat.eq_zero_or_pos num
  · rw [scaledValue_binary64_zero, Nat.zero_mul]
  · have hden : 2 ^ k ≤ 2 ^ 63 := Nat.pow_le_pow_right (by omega) (by omega)
    have he := (exponent_spec hpos hle hden).1
    rw [scaledValue_binary64 hpos hle hden, significand]
    generalize leadingExponent num (2 ^ k) 63 = e at he ⊢
    have hexact : num * 2 ^ (52 + e) = num * 2 ^ (52 + e - k) * 2 ^ k := by
      rw [Nat.mul_assoc, ← pow_add, Nat.sub_add_cancel (by omega)]
    have hexp : 1023 - e + (52 + e - k) = 1075 - k := by omega
    rw [hexact, roundHalfEven_mul (Nat.two_pow_pos k), Nat.mul_left_comm, ← pow_add, hexp]

theorem scaledValue_binary64_exact (hle : num ≤ 2 ^ k) :
    scaledValue (binary64 num (2 ^ k)) * 2 ^ k = num * 2 ^ 1075 := by
  rw [scaledValue_binary64_two_pow hk hle, Nat.mul_assoc, ← pow_add, Nat.sub_add_cancel (by omega)]

/-- Below 1 the pattern is at most 1 - 2^-k. -/
theorem scaledValue_binary64_lt_one (hlt : num < 2 ^ k) :
    scaledValue (binary64 num (2 ^ k)) + 2 ^ (1075 - k) ≤ 2 ^ 1075 := by
  rw [scaledValue_binary64_two_pow hk hlt.le, ← Nat.add_one_mul, ← pow_mul_pow_sub 2 (by omega : k ≤ 1075)]
  exact Nat.mul_le_mul_right _ hlt

end

/-! ### The three mappings (45_host_float.md R181, R182, R183) -/

/-- Settles O53: 2w + 1 over 2^33 needs no rounding, and 2w + 1 is 1 to 2^33 - 1. -/
theorem openMappingIsExact : Obligations.OpenMappingIsExact := by
  unfold Obligations.OpenMappingIsExact
  refine ⟨fun _ => rfl, fun w => ?_, by decide +kernel, by decide +kernel, by decide +kernel⟩
  have hw := w.isLt
  have hk : 33 ≤ 52 := by decide
  have hlt : 2 * w.toNat + 1 < 2 ^ 33 := by omega
  refine ⟨scaledValue_binary64_exact hk hlt.le, signBit_binary64 hlt.le (by decide), ?_,
    scaledValue_binary64_lt_one hk hlt⟩
  rw [open01, scaledValue_binary64_two_pow hk hlt.le]
  exact Nat.le_mul_of_pos_left _ (Nat.succ_pos _)

/-- Settles O54: w over 2^32 needs no rounding, and w is 0 to 2^32 - 1. -/
theorem halfOpenMappingIsExact : Obligations.HalfOpenMappingIsExact := by
  unfold Obligations.HalfOpenMappingIsExact
  refine ⟨fun _ => rfl, fun w => ?_, by decide +kernel, by decide +kernel, by decide +kernel⟩
  have hk : 32 ≤ 52 := by decide
  exact ⟨scaledValue_binary64_exact hk w.isLt.le, signBit_binary64 w.isLt.le (by decide),
    scaledValue_binary64_lt_one hk w.isLt⟩

/-- Settles O55: w over 2^32 - 1 is rounded once, to the nearest significand. -/
theorem closedMappingIsNearest : Obligations.ClosedMappingIsNearest := by
  unfold Obligations.ClosedMappingIsNearest
  refine ⟨fun _ => rfl, fun w => ?_, by decide +kernel, by decide +kernel, by decide +kernel⟩
  have hw := w.isLt
  have hle : w.toNat ≤ 2 ^ 32 - 1 := by omega
  have hden : 2 ^ 32 - 1 ≤ 2 ^ 63 := by omega
  obtain ⟨hhigh, hlow⟩ := binary64_nearest hle hden
  exact ⟨hhigh, hlow, signBit_binary64 hle hden, scaledValue_binary64_le_one hle hden⟩

end Sys2Proof.Machine

/-! ## next_f64 (45_host_float.md R184) -/

namespace Sys2Proof.Machine

/-! ### The block apart from the Host

What a command does depends on the block and changes nothing else, so the commands that a run of the Host completes are
those of the block alone. -/

/-- The block and its configuration (10_state.md R20; 00_scope.md R7), with what is not theirs blanked. -/
def State.block (s : State) : State :=
  { s with prog := [], pos := 0, r := 0, trace := [], sched := [], draws := 0 }

@[simp] theorem State.block_busy (s : State) : s.block.busy = s.busy := rfl
@[simp] theorem State.block_pending (s : State) : s.block.pending = s.pending := rfl
@[simp] theorem State.block_seeded (s : State) : s.block.seeded = s.seeded := rfl
@[simp] theorem State.block_cursor (s : State) : s.block.cursor = s.cursor := rfl
@[simp] theorem State.block_keyLen (s : State) : s.block.keyLen = s.keyLen := rfl
@[simp] theorem State.block_config (s : State) : s.block.config = s.config := rfl
@[simp] theorem mtWord_block (s : State) : mtWord s.block = mtWord s := rfl
@[simp] theorem mtArray_block (s : State) : mtArray s.block = mtArray s := rfl
@[simp] theorem performSeed_block (s : State) : performSeed s.block = (performSeed s).block := rfl

@[simp] theorem State.block_withProgram (p : List Stmt) (s : State) : (s.withProgram p).block = s.block := rfl

@[simp] theorem State.block_seterr (c : ErrCode) (s : State) : (s.seterr c).block = s.block.seterr c := rfl
@[simp] theorem State.block_accept (i : Instr) (s : State) : (s.accept i).block = s.block.accept i := rfl
@[simp] theorem State.block_complete (s : State) : s.complete.block = s.block.complete := rfl
@[simp] theorem State.block_clearErr (s : State) : s.clearErr.block = s.block.clearErr := rfl
@[simp] theorem State.block_loadSeeded (A : List Word) (o : DWord) (b : Bool) (s : State) :
    (s.loadSeeded A o b).block = s.block.loadSeeded A o b := rfl
@[simp] theorem State.block_afterTwist (A : List Word) (s : State) :
    (s.afterTwist A).block = s.block.afterTwist A := rfl
@[simp] theorem State.block_extracted (w : Word) (s : State) : (s.extracted w).block = s.block.extracted w := rfl

/-- Two states with the same block agree in each item of it. -/
theorem eq_of_block_eq {α : Type} (f : State → α) (hf : ∀ s, f s.block = f s) {a b : State} (h : a.block = b.block) :
    f a = f b := by
  rw [← hf a, h, hf b]

theorem busy_eq_of_block_eq {a b : State} (h : a.block = b.block) : a.busy = b.busy :=
  eq_of_block_eq _ State.block_busy h

theorem sameGenerator_of_block_eq {a b : State} (h : b.block = a.block) : SameGenerator a b where
  mt := eq_of_block_eq _ (fun _ => rfl) h
  cursor := eq_of_block_eq _ (fun _ => rfl) h
  origSeed := eq_of_block_eq _ (fun _ => rfl) h
  seeded := eq_of_block_eq _ (fun _ => rfl) h
  src := eq_of_block_eq _ (fun _ => rfl) h
  out := eq_of_block_eq _ (fun _ => rfl) h
  twists := eq_of_block_eq _ (fun _ => rfl) h
  err := eq_of_block_eq _ (fun _ => rfl) h

/-- f reads and writes the block alone. -/
def ActsOnBlock (f : State → Result State) : Prop := ∀ s, f s.block = andThen (f s) fun t => .next t.block

theorem ActsOnBlock.next_of_block_eq {f : State → Result State} {a b u : State} (hf : ActsOnBlock f)
    (hab : a.block = b.block) (h : f a = .next u) : ∃ v, f b = .next v ∧ v.block = u.block := by
  have hblock : andThen (f b) (fun t => .next t.block) = .next u.block := by
    rw [← hf b, ← hab, hf a, h, andThen_next]
  obtain ⟨v, hv, hvu⟩ := andThen_eq_next.1 hblock
  exact ⟨v, hv, Host.Outcome.next.inj hvu⟩

theorem ActsOnBlock.fault_of_block_eq {f : State → Result State} {a b : State} {e : Fault} (hf : ActsOnBlock f)
    (hab : a.block = b.block) (h : f a = .fault e) : f b = .fault e := by
  have hblock : andThen (f b) (fun t => .next t.block) = .fault e := by rw [← hf b, ← hab, hf a, h, andThen_fault]
  obtain hb | ⟨_, _, hb⟩ := andThen_eq_fault.1 hblock
  · exact hb
  · cases hb

/-- An update of the block after an action on it. -/
theorem ActsOnBlock.andThen_update {f : State → Result State} (hf : ActsOnBlock f) {g : State → State}
    (hg : ∀ s, g s.block = (g s).block) : ActsOnBlock fun s => andThen (f s) fun t => .next (g t) := fun s => by
  dsimp only
  rw [hf s]
  cases f s with
  | next t => exact congrArg Host.Outcome.next (hg t)
  | fault e => rfl
  | refused e => rfl

theorem keyWordsFrom_block (s : State) (j n : Nat) : keyWordsFrom s.block j n = keyWordsFrom s j n := by
  induction n generalizing j with
  | zero => rfl
  | succ n ih =>
    rw [keyWordsFrom, ih, keyWordsFrom]
    rfl

@[simp] theorem keyOperand_block (s : State) : keyOperand s.block = keyOperand s := keyWordsFrom_block s 0 _

theorem actsOnBlock_performSeeda : ActsOnBlock performSeeda := fun s => by
  unfold performSeeda
  rw [State.block_config, State.block_keyLen, keyOperand_block]
  split
  · cases keyOperand s with
    | error j => rfl
    | ok key => rw [andThen_next, State.block_loadSeeded]
  · rfl

theorem actsOnBlock_extract : ActsOnBlock extract := fun s => by
  unfold extract
  rw [mtWord_block, State.block_cursor]
  cases mtWord s s.cursor.toNat with
  | none => rfl
  | some y => rw [andThen_next, State.block_extracted]

theorem actsOnBlock_performNext : ActsOnBlock performNext := fun s => by
  unfold performNext
  rw [mtArray_block, State.block_cursor]
  split
  · cases mtArray s with
    | none => rfl
    | some A =>
      dsimp only
      rw [← State.block_afterTwist]
      exact actsOnBlock_extract _
  · exact actsOnBlock_extract s

/-- A command is issued and completed on the block alone (30_encoding.md R89, R90). -/
theorem actsOnBlock_exec (i : Instr) : ActsOnBlock (exec i) := fun s => by
  cases i with
  | seed =>
    change execSeed _ = andThen (execSeed s) _
    unfold execSeed
    rw [State.block_busy]
    split <;> simp
  | seeda =>
    change execSeeda _ = andThen (execSeeda s) _
    unfold execSeeda
    rw [State.block_busy, State.block_config, State.block_keyLen]
    split
    · exact actsOnBlock_performSeeda.andThen_update State.block_complete s
    · split <;> simp
  | next =>
    change execNext _ = andThen (execNext s) _
    unfold execNext
    rw [State.block_busy, State.block_seeded]
    split
    · exact actsOnBlock_performNext.andThen_update State.block_complete s
    · split <;> simp
  | clrerr =>
    change execClrerr _ = andThen (execClrerr s) _
    unfold execClrerr
    rw [State.block_busy]
    split <;> simp [performClrerr]

theorem actsOnBlock_engineMove : ActsOnBlock engineMove := fun s => by
  unfold engineMove
  rw [State.block_busy, State.block_pending]
  split
  · cases s.pending with
    | none => rfl
    | some i => exact actsOnBlock_exec i s
  · rfl

/-! ### One NEXT and the Engine -/

theorem engineMove_leaves_idle {s t : State} (h : engineMove s = .next t) : t.busy = false := by
  obtain ⟨hb, rfl⟩ | ⟨hb, i, _, hx⟩ := engineMove_cases h
  · exact hb
  · obtain ⟨_, _, _, hidle⟩ := commandsLeaveGenerator i s t hx
    exact (hidle hb).1

/-- A command from an idle block is its issue and a move of the Engine, which has none to make after a refusal. -/
theorem runCommand_eq_engineMove {s : State} (hb : s.busy = false) (i : Instr) :
    runCommand i s = andThen (exec i s) engineMove := by
  obtain ⟨t, ht⟩ := exec_idle_answers hb i
  rw [ht, andThen_next]
  obtain rfl | ⟨c, rfl⟩ := exec_idle_cases hb ht
  · rw [runCommand_of_accepted ht, engineMove_busy (State.accept_busy i s) (State.accept_pending i s)]
  · have hidle : (s.seterr c).busy = false := hb
    rw [runCommand, ht, andThen_next, hidle, engineMove_idle hidle]
    rfl

/-- A CMD write of NEXT on an idle block issues NEXT. -/
theorem issueCommand_next {s : State} (hb : s.busy = false) : issueCommand (encode .next) s = exec .next s :=
  issueCommand_legal hb (decodeWord_encode .next)

/-- What the CMD write of NEXT can come to (45_host_float.md R184; 60_exceptions.md R209): the Engine is done with what
was pending before the write, and NEXT is issued and completed; or a command is pending at the write, which is
discarded with BUSY_ERR, and then completes. -/
def NextEffect (s u : State) : Prop :=
  (∃ w, engineMove s = .next w ∧ runCommand .next w = .next u) ∨
    (s.busy = true ∧ engineMove (s.seterr .busyErr) = .next u)

/-- The block of x is that of s before the CMD write: with its command pending, or with none. -/
def NotIssued (s x : State) : Prop :=
  (s.busy = true ∧ x.block = s.block) ∨ ∃ w, engineMove s = .next w ∧ x.block = w.block

/-- The block of x is that of s after the CMD write: what the Engine makes of it is an effect of that write. -/
def Issued (s x : State) : Prop :=
  ∃ y, x.block = y.block ∧ ∀ u, engineMove y = .next u → NextEffect s u

section
variable {s x y : State}

theorem NotIssued.of_block_eq (h : NotIssued s x) (hxy : y.block = x.block) : NotIssued s y := by
  rwa [NotIssued, hxy]

theorem Issued.of_block_eq (h : Issued s x) (hxy : y.block = x.block) : Issued s y := by
  rwa [Issued, hxy]

theorem notIssued_start (s : State) : NotIssued s s := by
  cases hb : s.busy with
  | false => exact .inr ⟨s, engineMove_idle hb, rfl⟩
  | true => exact .inl ⟨hb, rfl⟩

theorem NotIssued.engineMove (h : NotIssued s x) (hm : engineMove x = .next y) : NotIssued s y := by
  obtain ⟨_, hx⟩ | ⟨w, hw, hx⟩ := h
  · obtain ⟨w, hw, hwy⟩ := actsOnBlock_engineMove.next_of_block_eq hx hm
    exact .inr ⟨w, hw, hwy.symm⟩
  · have hidle : x.busy = false := (busy_eq_of_block_eq hx).trans (engineMove_leaves_idle hw)
    obtain rfl : x = y := Host.Outcome.next.inj ((engineMove_idle hidle).symm.trans hm)
    exact .inr ⟨w, hw, hx⟩

/-- The CMD write: discarded while the command of s is pending, an issue of NEXT otherwise. -/
theorem NotIssued.issue (h : NotIssued s x) (hm : issueCommand (encode .next) x = .next y) : Issued s y := by
  obtain ⟨hb, hx⟩ | ⟨w, hw, hx⟩ := h
  · rw [issueCommand_busy ((busy_eq_of_block_eq hx).trans hb)] at hm
    obtain rfl := Host.Outcome.next.inj hm
    exact ⟨s.seterr .busyErr, by simp [hx], fun u hu => .inr ⟨hb, hu⟩⟩
  · have hwb := engineMove_leaves_idle hw
    rw [issueCommand_next ((busy_eq_of_block_eq hx).trans hwb)] at hm
    obtain ⟨v, hv, hvy⟩ := (actsOnBlock_exec .next).next_of_block_eq hx hm
    refine ⟨v, hvy.symm, fun u hu => .inl ⟨w, hw, ?_⟩⟩
    rw [runCommand_eq_engineMove hwb, hv, andThen_next, hu]

theorem Issued.engineMove (h : Issued s x) (hm : engineMove x = .next y) : Issued s y := by
  obtain ⟨z, hz, heffect⟩ := h
  obtain ⟨v, hv, hvy⟩ := actsOnBlock_engineMove.next_of_block_eq hz hm
  refine ⟨v, hvy.symm, fun u hu => ?_⟩
  rw [engineMove_idle (engineMove_leaves_idle hv)] at hu
  exact Host.Outcome.next.inj hu ▸ heffect v hv

/-- Where no command is pending, the write has had its effect. -/
theorem Issued.effect (h : Issued s x) (hb : x.busy = false) : ∃ u, x.block = u.block ∧ NextEffect s u := by
  obtain ⟨y, hy, heffect⟩ := h
  exact ⟨y, hy, heffect y (engineMove_idle ((busy_eq_of_block_eq hy).symm.trans hb))⟩

end

/-! ### The statements of the program `next` -/

/-- BUSY as STATUS shows it is exact, whether or not a command is pending (20_memory.md R54). -/
theorem readStatus_busyBit (s : State) : (readStatus s).1.getLsbD 0 = s.busy := by
  cases hb : s.busy with
  | false => rw [readStatus_idle hb, (getLsbD_statusWord_flags ..).1]
  | true => rw [readStatus_busy hb, (getLsbD_statusWord_flags ..).1]

/-- A read of STATUS takes at most a draw. -/
theorem readStatus_state_cases (s : State) : (readStatus s).2 = s ∨ (readStatus s).2 = s.tick :=
  (readReg_cases .status s).imp_right And.right

theorem issueCommand_keeps_pos {cw : Word} {s t : State} (h : issueCommand cw s = .next t) : t.pos = s.pos := by
  obtain ⟨_, rfl⟩ | ⟨_, _, _, _, rfl⟩ := issueCommand_cases h <;> rfl

/-- The Host's data and the order of moves, which a command leaves (10_state.md R37). -/
structure KeepsHost (s t : State) : Prop where
  prog : t.prog = s.prog
  pos : t.pos = s.pos
  r : t.r = s.r
  sched : t.sched = s.sched

theorem exec_keeps_host {i : Instr} {s t : State} (h : exec i s = .next t) : KeepsHost s t := by
  obtain ⟨_, _, _, _, _, hprog, hpos, hr, _, hsched, _, _⟩ := commandsLeaveOperands i s t h
  exact ⟨hprog, hpos, hr, hsched⟩

theorem engineMove_keeps_host {s t : State} (h : engineMove s = .next t) : KeepsHost s t := by
  obtain ⟨_, rfl⟩ | ⟨_, i, _, hx⟩ := engineMove_cases h
  · exact ⟨rfl, rfl, rfl, rfl⟩
  · exact exec_keeps_host hx

/-- A move of the Host leaves its program and the order of moves. -/
theorem hostMove_keeps_prog_sched {s t : State} (h : hostMove s = .next t) :
    t.prog = s.prog ∧ t.sched = s.sched := by
  obtain ⟨_, rfl⟩ | ⟨_, _, _, u, _, hw, rfl⟩ | ⟨_, _, _, u, _, hr, rfl⟩ | ⟨_, _, rfl⟩ := hostMove_cases h
  · exact ⟨rfl, rfl⟩
  · obtain ⟨_, rfl⟩ | ⟨_, _, _, _, rfl⟩ | ⟨_, rfl | rfl | rfl | ⟨_, _, rfl⟩⟩ := hostWrite_cases hw <;>
      exact ⟨rfl, rfl⟩
  · obtain rfl | ⟨_, rfl⟩ := hostRead_cases hr <;> exact ⟨rfl, rfl⟩
  · exact ⟨rfl, rfl⟩

section
variable {x : State} (hp : x.prog = nextProgram)
include hp

theorem hostMove_next_write (hpos : x.pos = 0) : hostMove x =
    andThen (issueCommand (encode .next) x) fun t => .next (t.wrote (Reg.offset .cmd) (encode .next)) := by
  rw [hostMove_wr (by rw [hp, hpos]; rfl), hostWrite_reg]
  rfl

theorem hostMove_next_status (hpos : x.pos = 1) :
    hostMove x = .next ((readStatus x).2.didRead (Reg.offset .status) (readStatus x).1) := by
  rw [hostMove_rd (by rw [hp, hpos]; rfl), hostRead_reg]
  rfl

theorem hostMove_next_branch (hpos : x.pos = 2) : hostMove x = .next (x.goTo (if x.r.getLsbD 0 then 1 else 3)) := by
  rw [hostMove_bbusy (by rw [hp, hpos]; rfl), hpos]

theorem hostMove_next_out (hpos : x.pos = 3) (hb : x.busy = false) :
    hostMove x = .next (x.didRead (Reg.offset .out) x.out) := by
  rw [hostMove_rd (by rw [hp, hpos]; rfl), hostRead_reg, readReg, readOpen_idle hb]
  rfl

end

/-! ### A run of the program `next` -/

theorem runFinished_iff {s : State} : runFinished s = true ↔ s.prog.length ≤ s.pos ∧ s.busy = false := by
  simp [runFinished]

/-- Where the Host stands in the program `next` and what is then known of x, a state of the run from s: behind the
`wait` no command is pending, so OUT is read as it is. -/
inductive NextStage (s x : State) : Prop where
  | write (hpos : x.pos = 0) (h : NotIssued s x)
  | status (hpos : x.pos = 1) (h : Issued s x)
  | branch (hpos : x.pos = 2) (h : Issued s x) (hr : x.r.getLsbD 0 = false → x.busy = false)
  | out (hpos : x.pos = 3) (h : Issued s x) (hb : x.busy = false)
  | ended (hpos : x.pos = 4) (h : Issued s x) (hb : x.busy = false) (hr : x.r = x.out)

section
variable {s x y : State}

theorem NextStage.withSched (h : NextStage s x) (l : List Move) : NextStage s (x.withSched l) := by
  cases h with
  | write hpos h => exact .write hpos (h.of_block_eq rfl)
  | status hpos h => exact .status hpos (h.of_block_eq rfl)
  | branch hpos h hr => exact .branch hpos (h.of_block_eq rfl) hr
  | out hpos h hb => exact .out hpos (h.of_block_eq rfl) hb
  | ended hpos h hb hr => exact .ended hpos (h.of_block_eq rfl) hb hr

theorem NextStage.hostMove (h : NextStage s x) (hp : x.prog = nextProgram) (hm : hostMove x = .next y) :
    NextStage s y := by
  cases h with
  | write hpos h =>
    rw [hostMove_next_write hp hpos] at hm
    obtain ⟨u, hu, hy⟩ := andThen_eq_next.1 hm
    obtain rfl := Host.Outcome.next.inj hy
    exact .status (by simp [issueCommand_keeps_pos hu, hpos]) ((h.issue hu).of_block_eq rfl)
  | status hpos h =>
    rw [hostMove_next_status hp hpos] at hm
    obtain rfl := Host.Outcome.next.inj hm
    have hbit := readStatus_busyBit x
    obtain he | he := readStatus_state_cases x <;> rw [he] <;>
      exact .branch (congrArg (· + 1) hpos) (h.of_block_eq rfl) fun hr => hbit.symm.trans hr
  | branch hpos h hr =>
    rw [hostMove_next_branch hp hpos] at hm
    obtain rfl := Host.Outcome.next.inj hm
    split
    next => exact .status rfl (h.of_block_eq rfl)
    next hbit => exact .out rfl (h.of_block_eq rfl) (hr (by simpa using hbit))
  | out hpos h hb =>
    rw [hostMove_next_out hp hpos hb] at hm
    obtain rfl := Host.Outcome.next.inj hm
    exact .ended (by simp [hpos]) (h.of_block_eq rfl) hb rfl
  | ended hpos h hb hr =>
    have hlen : x.prog.length ≤ x.pos := by rw [hp, hpos]; rfl
    rw [hostMove_ended hlen] at hm
    obtain rfl := Host.Outcome.next.inj hm
    exact .ended hpos h hb hr

theorem NextStage.engineMove (h : NextStage s x) (hm : engineMove x = .next y) : NextStage s y := by
  obtain ⟨-, hpos', hr', -⟩ := engineMove_keeps_host hm
  have hidle := engineMove_leaves_idle hm
  cases h with
  | write hpos h => exact .write (hpos'.trans hpos) (h.engineMove hm)
  | status hpos h => exact .status (hpos'.trans hpos) (h.engineMove hm)
  | branch hpos h _ => exact .branch (hpos'.trans hpos) (h.engineMove hm) fun _ => hidle
  | out hpos h _ => exact .out (hpos'.trans hpos) (h.engineMove hm) hidle
  | ended hpos h hb hr =>
    rw [engineMove_idle hb] at hm
    obtain rfl := Host.Outcome.next.inj hm
    exact .ended hpos h hb hr

/-- x is a state of a run of the program `next` from s in which no reset is ordered. -/
structure RunsNext (s x : State) : Prop where
  prog : x.prog = nextProgram
  noReset : ∀ m ∈ x.sched, m ≠ .reset
  stage : NextStage s x

theorem reset_mem_sched (h : nextMove x = .reset) : .reset ∈ x.sched := by
  unfold nextMove at h
  split at h
  next m l hs => simp [hs, h]
  next => split at h <;> cases h

theorem RunsNext.step (h : RunsNext s x) (hstep : step x = .next y) : RunsNext s y := by
  obtain ⟨hprog, hno, hstage⟩ := h
  have htail : ∀ m ∈ x.sched.tail, m ≠ .reset := fun m hm => hno m (List.mem_of_mem_tail hm)
  have hnext := hstage.withSched x.sched.tail
  obtain ⟨_, hm⟩ | ⟨_, hm⟩ | ⟨hr, _⟩ := step_cases hstep
  · obtain ⟨hp, hs⟩ := hostMove_keeps_prog_sched hm
    exact ⟨hp.trans hprog, hs ▸ htail, hnext.hostMove hprog hm⟩
  · obtain ⟨hp, -, -, hs⟩ := engineMove_keeps_host hm
    exact ⟨hp.trans hprog, hs ▸ htail, hnext.engineMove hm⟩
  · exact absurd rfl (hno _ (reset_mem_sched hr))

theorem runsNext_start (hno : ∀ m ∈ s.sched, m ≠ .reset) : RunsNext s (s.withProgram nextProgram) :=
  ⟨rfl, hno, .write rfl ((notIssued_start s).of_block_eq rfl)⟩

/-- Where the run has ended, r is OUT as the write of NEXT has left it. -/
theorem RunsNext.finished (h : RunsNext s x) (hfin : runFinished x = true) :
    ∃ u, x.block = u.block ∧ NextEffect s u ∧ x.r = u.out := by
  obtain ⟨hprog, -, hstage⟩ := h
  have hend : 4 ≤ x.pos := by simpa [hprog, nextProgram] using (runFinished_iff.1 hfin).1
  cases hstage with
  | write hpos _ => omega
  | status hpos _ => omega
  | branch hpos _ _ => omega
  | out hpos _ _ => omega
  | ended _ h hb hr =>
    obtain ⟨u, hu, heffect⟩ := h.effect hb
    exact ⟨u, hu, heffect, hr.trans (eq_of_block_eq _ (fun _ => rfl) hu)⟩

end

/-- What holds at the start of a run and is kept by every step holds at its end. -/
theorem runProgram_induction {P : State → Prop} (hstep : ∀ x y, P x → step x = .next y → P y) {n : Nat}
    {s t : State} (hs : P s) (h : runProgram n s = .next (some t)) : P t := by
  induction n using Nat.strong_induction_on generalizing s with
  | _ n ih =>
    obtain ⟨_, rfl | ⟨m, u, hm, hu, hrun⟩⟩ := runProgram_cases h
    · exact hs
    · exact ih m hm (hstep _ _ hs hu) hrun

theorem nextF64_eq_some {n : Nat} {s t : State} {v : BitVec 64} : nextF64 n s = .next (some (v, t)) ↔
    runProgram n (s.withProgram nextProgram) = .next (some t) ∧ uniform t.config.floatPolicy t.r = v := by
  unfold nextF64
  rw [andThen_eq_next]
  constructor
  · rintro ⟨o, ho, h⟩
    obtain ⟨u, rfl, hu⟩ := Option.map_eq_some_iff.1 (Host.Outcome.next.inj h)
    obtain ⟨rfl, rfl⟩ := Prod.mk.inj hu
    exact ⟨ho, rfl⟩
  · rintro ⟨ho, rfl⟩
    exact ⟨_, ho, rfl⟩

theorem assemble_next (c : Config) : assemble c (.line none .next .done) = .ok nextProgram := by
  obtain ⟨_, _, hnext, _⟩ := pseudoInstructionsExpand c
  exact hnext

/-- Settles O57: the run's stages say what its state is; at its end the write of NEXT has had its effect. -/
theorem nextF64TakesOneWord : Obligations.NextF64TakesOneWord := by
  unfold Obligations.NextF64TakesOneWord
  refine ⟨assemble_next, fun n s t v hno h => ?_⟩
  obtain ⟨hrun, rfl⟩ := nextF64_eq_some.1 h
  have hend := runProgram_induction (fun _ _ => RunsNext.step) (runsNext_start hno) hrun
  have hconfig : t.config = s.config :=
    runProgram_induction (P := fun x => x.config = s.config) (s := s.withProgram nextProgram)
      (fun _ _ hx hstep => (step_keeps_config hstep).trans hx) rfl hrun
  obtain ⟨u, hu, heffect, hr⟩ := hend.finished (runProgram_cases hrun).1
  refine ⟨u, sameGenerator_of_block_eq hu, hr, by rw [hconfig, hr], fun hb => ?_, fun i hb hi => ?_⟩
  · obtain ⟨w, hw, hrw⟩ | ⟨hb', _⟩ := heffect
    · rw [engineMove_idle hb] at hw
      exact Host.Outcome.next.inj hw ▸ hrw
    · simp [hb] at hb'
  · obtain ⟨w, hw, hrw⟩ | ⟨_, hdiscarded⟩ := heffect
    · exact .inl ⟨w, (engineMove_busy hb hi).symm.trans hw, hrw⟩
    · exact .inr ((engineMove_busy (s := s.seterr .busyErr) hb hi).symm.trans hdiscarded)

/-! ### The run without an order of moves -/

/-- x is a state of a run of the program `next` at the statement p, with no move ordered from outside. -/
structure UnorderedAt (p : Nat) (x : State) : Prop where
  prog : x.prog = nextProgram
  pos : x.pos = p
  sched : x.sched = []

section
variable {p : Nat} {x : State}

theorem withSched_tail_of_unordered (h : x.sched = []) : x.withSched x.sched.tail = x := by
  have htail : x.sched.tail = x.sched := by rw [h, List.tail_nil]
  rw [htail]
  rfl

theorem UnorderedAt.wrote (h : UnorderedAt p x) (off : Nat) (v : Word) : UnorderedAt (p + 1) (x.wrote off v) :=
  ⟨h.prog, congrArg (· + 1) h.pos, h.sched⟩

theorem UnorderedAt.didRead (h : UnorderedAt p x) (off : Nat) (v : Word) : UnorderedAt (p + 1) (x.didRead off v) :=
  ⟨h.prog, congrArg (· + 1) h.pos, h.sched⟩

theorem UnorderedAt.goTo (h : UnorderedAt p x) (q : Nat) : UnorderedAt q (x.goTo q) := ⟨h.prog, rfl, h.sched⟩

theorem UnorderedAt.not_finished (h : UnorderedAt p x) (hp : p < 4) : runFinished x = false := by
  rw [← Bool.not_eq_true, runFinished_iff, h.prog, h.pos]
  exact fun hfin => absurd hfin.1 (Nat.not_le.2 hp)

theorem UnorderedAt.finished (h : UnorderedAt 4 x) (hb : x.busy = false) : runFinished x = true :=
  runFinished_iff.2 ⟨by rw [h.prog, h.pos]; rfl, hb⟩

/-- While no command is pending the Host moves. -/
theorem UnorderedAt.run_idle (h : UnorderedAt p x) (hp : p < 4) (hb : x.busy = false) (n : Nat) :
    runProgram (n + 1) x = andThen (hostMove x) (runProgram n) := by
  rw [runProgram_succ (h.not_finished hp), step_host (by simp [nextMove, h.sched, hb]),
    withSched_tail_of_unordered h.sched]

/-- While a command is pending the Engine moves. -/
theorem UnorderedAt.run_busy (h : UnorderedAt p x) (hp : p < 4) (hb : x.busy = true) (n : Nat) :
    runProgram (n + 1) x = andThen (engineMove x) (runProgram n) := by
  rw [runProgram_succ (h.not_finished hp), step_engine (by simp [nextMove, h.sched, hb]),
    withSched_tail_of_unordered h.sched]

theorem UnorderedAt.engineMove (h : UnorderedAt p x) {y : State} (hm : engineMove x = .next y) : UnorderedAt p y := by
  obtain ⟨hprog, hpos, -, hsched⟩ := engineMove_keeps_host hm
  exact ⟨hprog.trans h.prog, hpos.trans h.pos, hsched.trans h.sched⟩

/-! From an idle block the program ends in as many steps as it has statements left. -/

theorem UnorderedAt.ends_from_out (h : UnorderedAt 3 x) (hb : x.busy = false) (n : Nat) :
    ∃ t, runProgram (n + 1) x = .next (some t) := by
  rw [h.run_idle (by decide) hb, hostMove_next_out h.prog h.pos hb, andThen_next]
  exact ⟨_, runProgram_of_finished ((h.didRead (Reg.offset .out) x.out).finished hb) n⟩

theorem UnorderedAt.ends_from_branch (h : UnorderedAt 2 x) (hb : x.busy = false) (hr : x.r.getLsbD 0 = false)
    (n : Nat) : ∃ t, runProgram (n + 2) x = .next (some t) := by
  rw [h.run_idle (by decide) hb, hostMove_next_branch h.prog h.pos, hr, andThen_next]
  exact (h.goTo 3).ends_from_out hb n

theorem UnorderedAt.ends_from_status (h : UnorderedAt 1 x) (hb : x.busy = false) (n : Nat) :
    ∃ t, runProgram (n + 3) x = .next (some t) := by
  have hread : (readStatus x).2 = x := by rw [readStatus_idle hb]
  rw [h.run_idle (by decide) hb, hostMove_next_status h.prog h.pos, hread, andThen_next]
  exact (h.didRead _ _).ends_from_branch hb ((readStatus_busyBit x).trans hb) n

end

section
variable {s y : State}

/-- The first step of an idle run writes CMD, which issues NEXT; y is the issue on s. -/
theorem run_next_issues (hb : s.busy = false) (hs : s.sched = []) (hy : exec .next s = .next y) :
    ∃ x, x.block = y.block ∧ UnorderedAt 1 x ∧
      ∀ n, runProgram (n + 1) (s.withProgram nextProgram) = runProgram n x := by
  have hstart : UnorderedAt 0 (s.withProgram nextProgram) := ⟨rfl, rfl, hs⟩
  obtain ⟨z, hz, hzy⟩ := (actsOnBlock_exec .next).next_of_block_eq (State.block_withProgram nextProgram s).symm hy
  obtain ⟨hprog, hpos, -, hsched⟩ := exec_keeps_host hz
  have hat : UnorderedAt 0 z := ⟨hprog, hpos, hsched.trans hs⟩
  refine ⟨z.wrote (Reg.offset .cmd) (encode .next), hzy, hat.wrote _ _, fun n => ?_⟩
  rw [hstart.run_idle (by decide) hb, hostMove_next_write rfl rfl,
    issueCommand_next (s := s.withProgram nextProgram) hb, hz, andThen_next, andThen_next]

/-- The run ends where the Engine completes what was issued. -/
theorem run_next_ends (hb : s.busy = false) (hs : s.sched = []) {u : State} (hu : runCommand .next s = .next u)
    (n : Nat) : ∃ t, runProgram (n + 5) (s.withProgram nextProgram) = .next (some t) := by
  rw [runCommand_eq_engineMove hb] at hu
  obtain ⟨y, hy, hyu⟩ := andThen_eq_next.1 hu
  obtain ⟨x, hx, hat, hrun⟩ := run_next_issues hb hs hy
  rw [hrun (n + 4)]
  cases hbx : x.busy with
  | false => exact hat.ends_from_status hbx (n + 1)
  | true =>
    obtain ⟨z, hz, -⟩ := actsOnBlock_engineMove.next_of_block_eq hx.symm hyu
    rw [hat.run_busy (by decide) hbx, hz, andThen_next]
    exact (hat.engineMove hz).ends_from_status (engineMove_leaves_idle hz) n

/-- The run faults where the Engine faults on what was issued. -/
theorem run_next_faults (hb : s.busy = false) (hs : s.sched = []) {e : Fault} (he : runCommand .next s = .fault e)
    (n : Nat) : runProgram (n + 2) (s.withProgram nextProgram) = .fault e := by
  obtain ⟨y, hy⟩ := exec_idle_answers hb .next
  rw [runCommand_eq_engineMove hb, hy, andThen_next] at he
  obtain ⟨x, hx, hat, hrun⟩ := run_next_issues hb hs hy
  have hxe := actsOnBlock_engineMove.fault_of_block_eq hx.symm he
  have hbx : x.busy = true := by
    by_contra hidle
    rw [engineMove_idle (Bool.not_eq_true _ ▸ hidle)] at hxe
    cases hxe
  rw [hrun (n + 1), hat.run_busy (by decide) hbx, hxe, andThen_fault]

end

/-- Settles O58: the Host writes, the Engine completes, and the Host reads STATUS, goes on and reads OUT; the value is
that of O57. -/
theorem nextF64Ends : Obligations.NextF64Ends := by
  unfold Obligations.NextF64Ends
  intro n s hb hs
  refine ⟨fun u hu hn => ?_, fun e he hn => ?_⟩
  · obtain ⟨k, rfl⟩ := Nat.exists_eq_add_of_le' hn
    obtain ⟨t, ht⟩ := run_next_ends hb hs hu k
    have hend := nextF64_eq_some.2 ⟨ht, rfl⟩
    obtain ⟨u', -, -, hval, hidle, -⟩ := nextF64TakesOneWord.2 _ s t _ (by simp [hs]) hend
    obtain rfl : u = u' := Host.Outcome.next.inj (hu.symm.trans (hidle hb))
    exact ⟨t, hval ▸ hend⟩
  · obtain ⟨k, rfl⟩ := Nat.exists_eq_add_of_le' hn
    rw [nextF64, run_next_faults hb hs he, andThen_fault]

end Sys2Proof.Machine

/-! ## The exceptions (60_exceptions.md) -/

namespace Sys2Proof.Machine

/-! ### INVALID_SEED and NOT_SEEDED (60_exceptions.md R202, R203) -/

/-- A write of a command's word to CMD on an idle block is the issue of the command (30_encoding.md R89). -/
theorem hostWrite_encode {s : State} (hb : s.busy = false) (i : Instr) :
    hostWrite .w32 0x000 (encode i) s = exec i s :=
  (hostWrite_cmd _ s).trans (issueCommand_legal hb (decodeWord_encode i))

/-- Settles O9: the word is SEEDA's, whose check fails, and recording the error leaves BUSY and SEEDED, on which the
issue of NEXT depends. -/
theorem invalidSeedKeepsGenerator : Obligations.InvalidSeedKeepsGenerator := by
  unfold Obligations.InvalidSeedKeepsGenerator
  intro s hb hk
  have hrefused : hostWrite .w32 0x000 2 s = .next (s.seterr .invalidSeed) :=
    (hostWrite_encode hb .seeda).trans (exec_seeda_idle_refused hb ((not_keyLenOk_iff _ _).2 hk))
  exact ⟨_, hrefused, rfl, rfl, rfl, rfl, rfl, rfl, rfl, rfl, rfl, hb,
    fun hs => exec_next_idle_seeded (s := s.seterr .invalidSeed) hb hs⟩

/-- Settles O10: the word is NEXT's, whose check is SEEDED, and only a reset clears SEEDED (O22). -/
theorem nextBeforeSeedingRefused : Obligations.NextBeforeSeedingRefused := by
  unfold Obligations.NextBeforeSeedingRefused
  refine ⟨fun s hb hs => (hostWrite_encode hb .next).trans (exec_next_idle_unseeded hb hs),
    fun s hb hs => (hostWrite_encode hb .next).trans (exec_next_idle_seeded hb hs), fun s t h hs hm => ?_⟩
  by_contra ht
  exact hm ((seededSetAndCleared s t h).1 hs (Bool.not_eq_true _ ▸ ht))

/-! ### BUSY_ERR (60_exceptions.md R205) -/

/-- A read records no error (20_memory.md R54). -/
theorem hostRead_keeps_err {w : Width} {off : Nat} {v : Word} {s t : State} (h : hostRead w off s = .next (v, t)) :
    t.err = s.err := by
  obtain rfl | ⟨_, rfl⟩ := hostRead_cases h <;> rfl

/-- Settles O11: CMD and the operands discard the write alike, and a read takes at most a draw. -/
theorem busyWritesDiscarded : Obligations.BusyWritesDiscarded := by
  unfold Obligations.BusyWritesDiscarded
  exact fun s off v hb => ⟨fun ho => hostWrite_discarded hb ho v, fun w u t => hostRead_keeps_err⟩

/-! ### The first error is kept (60_exceptions.md R206) -/

/-- Where an error is recorded, another one is not. -/
theorem State.seterr_of_err_ne {s : State} (he : s.err ≠ .noError) (c : ErrCode) : s.seterr c = s := by
  rw [State.seterr, if_neg he]

theorem hostWrite_keeps_first_err {w : Width} {off : Nat} {v : Word} {s t : State} (he : s.err ≠ .noError)
    (h : hostWrite w off v s = .next t) : t.err = s.err := by
  obtain ⟨c, rfl⟩ | ⟨_, _, _, _, rfl⟩ | ⟨_, rfl | rfl | rfl | ⟨_, _, rfl⟩⟩ := hostWrite_cases h
  · rw [State.seterr_of_err_ne he]
  all_goals rfl

theorem hostMove_keeps_first_err {s t : State} (he : s.err ≠ .noError) (h : hostMove s = .next t) :
    t.err = s.err := by
  obtain ⟨_, rfl⟩ | ⟨_, off, v, u, _, hw, rfl⟩ | ⟨_, off, v, u, _, hr, rfl⟩ | ⟨_, _, rfl⟩ := hostMove_cases h
  · rfl
  · exact (State.wrote_err off v u).trans (hostWrite_keeps_first_err he hw)
  · exact (State.didRead_err off v u).trans (hostRead_keeps_err hr)
  · rfl

/-- A completion leaves ERR, but for CLRERR's, which clears it (10_state.md R41; 44_control.md R170). -/
theorem exec_busy_err_cases {i : Instr} {s t : State} (hb : s.busy = true) (h : exec i s = .next t) :
    t.err = s.err ∨ (i = .clrerr ∧ t.err = .noError) := by
  obtain ⟨_, _, _, _, _, rfl⟩ | ⟨_, _, _, rfl⟩ | ⟨_, _, _, _, _, rfl⟩ | ⟨hi, rfl⟩ := exec_busy_cases hb h
  · exact .inl rfl
  · exact .inl rfl
  · exact .inl (by simp)
  · exact .inr ⟨hi, rfl⟩

/-- A step that changes a recorded error clears it, and is a reset or the completion of CLRERR. -/
theorem step_changes_first_err {s t : State} (h : step s = .next t) (he : s.err ≠ .noError) (hne : t.err ≠ s.err) :
    t.err = .noError ∧
      (nextMove s = .reset ∨ (nextMove s = .engine ∧ s.busy = true ∧ s.pending = some .clrerr)) := by
  obtain ⟨_, hm⟩ | ⟨hengine, hm⟩ | ⟨hreset, rfl⟩ := step_cases h
  · exact absurd (hostMove_keeps_first_err (s := s.withSched s.sched.tail) he hm) hne
  · obtain ⟨_, rfl⟩ | ⟨hb, i, hi, hx⟩ := engineMove_cases hm
    · exact absurd rfl hne
    · obtain hsame | ⟨rfl, hclear⟩ := exec_busy_err_cases hb hx
      · exact absurd hsame hne
      · exact ⟨hclear, .inr ⟨hengine, hb, hi⟩⟩
  · exact ⟨rfl, .inl hreset⟩

/-- An idle block accepts a command or refuses it with an error code, which is not 0 (30_encoding.md R89). -/
theorem exec_idle_accepts_or_refuses {s : State} (hb : s.busy = false) (i : Instr) :
    exec i s = .next (s.accept i) ∨ ∃ c, c ≠ .noError ∧ exec i s = .next (s.seterr c) := by
  cases i with
  | seed => exact .inl (exec_idle_accepted hb nofun nofun)
  | clrerr => exact .inl (exec_clrerr_idle hb)
  | seeda =>
    by_cases hk : keyLenOk s.config s.keyLen
    · exact .inl (exec_idle_accepted hb nofun fun _ => hk)
    · exact .inr ⟨.invalidSeed, nofun, exec_seeda_idle_refused hb hk⟩
  | next =>
    cases hs : s.seeded with
    | true => exact .inl (exec_next_idle_seeded hb hs)
    | false => exact .inr ⟨.notSeeded, nofun, exec_next_idle_unseeded hb hs⟩

/-- A CMD write to an idle block is accepted as a command or refused with an error code, which is not 0: an illegal word
has its own (30_encoding.md R89). -/
theorem issueCommand_idle_cases {cw : Word} {s t : State} (hb : s.busy = false) (h : issueCommand cw s = .next t) :
    (∃ i, t = s.accept i) ∨ ∃ c, c ≠ .noError ∧ t = s.seterr c := by
  cases hd : decodeWord cw with
  | error e =>
    exact .inr ⟨.illegalCmd, nofun, Host.Outcome.next.inj (h.symm.trans (issueCommand_illegal hb ⟨e, hd⟩))⟩
  | ok i =>
    rw [issueCommand_legal hb hd] at h
    obtain hacc | ⟨c, hc, href⟩ := exec_idle_accepts_or_refuses hb i
    · exact .inl ⟨i, Host.Outcome.next.inj (h.symm.trans hacc)⟩
    · exact .inr ⟨c, hc, Host.Outcome.next.inj (h.symm.trans href)⟩

/-- A write that is discarded while BUSY = 1, or a CMD write that leaves the block idle, does nothing but seterr. -/
theorem hostWrite_refused {w : Width} {off : Nat} {v : Word} {s t : State} (h : hostWrite w off v s = .next t)
    (hr : s.busy = true ∨ (off = 0x000 ∧ t.busy = false)) : ∃ c, t = s.seterr c := by
  obtain hb | ⟨rfl, ht⟩ := hr
  · obtain hc | ⟨hi, _⟩ | ⟨hi, _⟩ := hostWrite_cases h
    · exact hc
    · simp [hb] at hi
    · simp [hb] at hi
  · obtain ⟨_, rfl, _⟩ := checkAccess_eq_next.1 h
    obtain hc | ⟨_, i, _, _, rfl⟩ := issueCommand_cases ((hostWrite_cmd v s).symm.trans h)
    · exact hc
    · simp at ht

/-- Settles O12: who may change a recorded error is read off the moves; a CMD write with ERR = 0 accepts the command and
leaves ERR, or records a code that is not 0; and a refused write is seterr alone. -/
theorem firstErrorIsKept : Obligations.FirstErrorIsKept := by
  unfold Obligations.FirstErrorIsKept
  refine ⟨fun s t => step_changes_first_err, fun s t cw hb he h => ?_, fun s t w off v h hr => ?_⟩
  · rw [hostWrite_cmd] at h
    obtain ⟨j, rfl⟩ | ⟨c, hc, rfl⟩ := issueCommand_idle_cases hb h
    · refine ⟨iff_of_true he rfl, fun i u ht _ hx => ?_⟩
      obtain hsame | ⟨_, hclear⟩ := exec_busy_err_cases ht hx
      · exact hsame.trans he
      · exact hclear
    · have hidle : ¬(s.seterr c).busy = true := by simp [hb]
      have herr : (s.seterr c).err ≠ .noError := by simpa [he] using hc
      exact ⟨iff_of_false herr hidle, fun i u ht => absurd ht hidle⟩
  · obtain ⟨c, rfl⟩ := hostWrite_refused h hr
    exact ⟨rfl, fun he => State.seterr_of_err_ne he c⟩

/-! ### What the Host can count (60_exceptions.md R214) -/

/-- Settles O35: TWISTS is c / 624, rounded up, and does not wrap (log entry 12); CURSOR counts the NEXT commands since
the last twist. -/
theorem nextCountIsObservable : Obligations.NextCountIsObservable := by
  unfold Obligations.NextCountIsObservable
  intro A t u c ht hu hc
  have hcursor := ht.cursor_of_nextTimes hu
  have htwists : u.twists.toNat = (c + 623) / 624 := by
    rw [ht.twists_of_nextTimes hu, BitVec.toNat_ofNat, Nat.mod_eq_of_lt (by omega)]
  have hzero : u.twists = 0 ↔ u.twists.toNat = 0 := BitVec.toNat_inj.symm
  simp only [hzero, htwists]
  split <;> omega

/-! ### The busy hazard (60_exceptions.md R209; 70_reset_and_hazards.md R234) -/

/-- A step of the Host at a write that is served (30_encoding.md R87). -/
theorem step_of_hostWrite {w : Width} {off : Nat} {v : Word} {s t : State} (hm : nextMove s = .host)
    (h : s.prog[s.pos]? = some (.wr w off v)) (hw : hostWrite w off v (s.withSched s.sched.tail) = .next t) :
    step s = .next (t.wrote off v) := by
  rw [step_host hm, hostMove_wr (s := s.withSched s.sched.tail) h, hw, andThen_next]

/-- A NEXT completes on every written state array. -/
theorem exec_next_answers {s : State} {A : List Word} (hb : s.busy = true) (hm : s.mt = A.map some)
    (hA : A.length = 624) : ∃ t, exec .next s = .next t := by
  obtain ⟨t, ht⟩ := performNext_answers ((mtArray_eq_some_iff s A).2 ⟨hm, hA⟩)
  exact ⟨t.complete, by rw [exec_next_busy hb, ht, andThen_next]⟩

/-- Settles O50: the Host's CMD write is discarded while the first NEXT is pending; the Engine's move completes that
one and leaves a seeded idle block and the Host where it was, so the second is accepted. -/
theorem busyHazardHasTwoOutcomes : Obligations.BusyHazardHasTwoOutcomes := by
  unfold Obligations.BusyHazardHasTwoOutcomes
  intro s A l hb hp hs hm hA hprog
  refine ⟨?_, ?_⟩
  · have hdiscarded := hostWrite_discarded (s := s.withSched l) (off := 0x000) hb (.inl (by simp)) 3
    exact ⟨_, step_of_hostWrite rfl hprog hdiscarded, rfl, hb, hp, rfl, rfl⟩
  · obtain ⟨t, ht⟩ := exec_next_answers (s := s.withSched (.host :: l)) hb hm hA
    obtain ⟨-, -, hgen, hdone⟩ := commandsLeaveGenerator _ _ _ ht
    obtain ⟨-, hseeded, -, herr, -⟩ := hgen hb rfl
    obtain ⟨hidle, -⟩ := hdone hb
    obtain ⟨htprog, htpos, -, htsched⟩ := exec_keeps_host ht
    have hfirst : step (s.withSched (.engine :: .host :: l)) = .next t :=
      (step_engine rfl).trans ((engineMove_busy (s := s.withSched (.host :: l)) hb hp).trans ht)
    have hmove : nextMove t = .host := by rw [nextMove, htsched]; rfl
    have hat : t.prog[t.pos]? = some (.wr .w32 0x000 3) := by rw [htprog, htpos]; exact hprog
    have haccepted := (hostWrite_encode (s := t.withSched t.sched.tail) hidle .next).trans
      (exec_next_idle_seeded hidle (hseeded.trans hs))
    exact ⟨t, _, hfirst, step_of_hostWrite hmove hat haccepted, hidle, rfl, rfl, herr, congrArg (· + 1) htpos⟩

end Sys2Proof.Machine

/-! ## Reset and the end of a pending command (70_reset_and_hazards.md) -/

namespace Sys2Proof.Machine

/-! ### A pending command completes (R241) -/

/-- SEEDA has its key operand where every word below KEYLEN is written (41_seeding.md R110). -/
theorem exists_keyOperand {s : State} (hkey : ∀ j, j < s.keyLen.toNat → keyWord s j ≠ none) :
    ∃ key, keyOperand s = .ok key := by
  cases h : keyOperand s with
  | ok key => exact ⟨key, rfl⟩
  | error j =>
    obtain ⟨-, hj, hnone, -⟩ := (keyWordsFrom_eq_error_iff s 0 _ j).1 h
    exact absurd hnone (hkey j (by omega))

/-- Under the invariant the pending command completes, a SEEDA where its key is written. -/
theorem exec_pending_answers {i : Instr} {s : State} (hinv : Inv s) (hb : s.busy = true) (hp : s.pending = some i)
    (hkey : s.pending = some .seeda → ∀ j, j < s.keyLen.toNat → keyWord s j ≠ none) : ∃ t, exec i s = .next t := by
  cases i with
  | seed => exact ⟨_, exec_seed_busy hb⟩
  | seeda =>
    obtain ⟨key, hk⟩ := exists_keyOperand (hkey hp)
    have hlen := (keyLenOk_iff _ _).2 (hinv.seedaLength hp)
    exact ⟨_, by rw [exec_seeda_busy hb, performSeeda_of_key hlen hk, andThen_next]⟩
  | next =>
    obtain ⟨A, hA⟩ := hinv.exists_mtArray (hinv.nextSeeded hp)
    obtain ⟨hwords, hlen⟩ := (mtArray_eq_some_iff s A).1 hA
    exact exec_next_answers hb hwords hlen
  | clrerr => exact ⟨_, exec_clrerr_busy hb⟩

/-- Where no move is ordered the Engine moves while a command is pending (log entry 2). -/
theorem nextMove_unordered_busy {s : State} (hsched : s.sched = []) (hb : s.busy = true) : nextMove s = .engine := by
  simp [nextMove, hsched, hb]

/-- Settles O49: the Engine moves next, and under the invariant the command that is pending answers a next state, in
which BUSY is cleared. -/
theorem unorderedCommandCompletes : Obligations.UnorderedCommandCompletes := by
  unfold Obligations.UnorderedCommandCompletes
  intro s hinv hb hsched hkey
  obtain ⟨i, hp⟩ := Option.isSome_iff_exists.1 (hinv.busyPending.symm.trans hb)
  obtain ⟨t, ht⟩ := exec_pending_answers (hinv.withSched s.sched.tail) hb hp hkey
  have hstep : step s = .next t := by
    have hmove := engineMove_busy (s := s.withSched s.sched.tail) hb hp
    rw [step_engine (nextMove_unordered_busy hsched hb), hmove, ht]
  obtain ⟨-, -, -, hdone⟩ := commandsLeaveGenerator _ _ _ ht
  obtain ⟨hidle, -⟩ := hdone hb
  exact ⟨t, hstep, hidle⟩

/-! ### The reset input (R230) -/

/-- The step at which reset is asserted. -/
theorem step_reset {s : State} (h : nextMove s = .reset) : step s = .next (s.withSched s.sched.tail).hardwareReset :=
  step_eq_runMove h

@[simp] theorem mtWord_hardwareReset (s : State) (i : Nat) : mtWord s.hardwareReset i = none := by
  rw [mtWord, State.hardwareReset_mt, blankArray, List.getElem?_replicate]
  split <;> rfl

@[simp] theorem keyWord_hardwareReset (s : State) (i : Nat) : keyWord s.hardwareReset i = none := rfl

/-- The STATUS word of CURSOR = 624 with every other field 0 (10_state.md R39). -/
theorem statusWord_reset : statusWord 624 .noError false false false = 0x02700000 := by decide

theorem hostRead_status_hardwareReset (s : State) :
    hostRead .w32 0x004 s.hardwareReset = .next (0x02700000, s.hardwareReset) := by
  rw [hostRead_status, readStatus_idle s.hardwareReset_busy, State.hardwareReset_cursor, State.hardwareReset_err,
    State.hardwareReset_src, State.hardwareReset_seeded, statusWord_reset]

/-- Settles O44: the step answers `State.hardwareReset`, whose items are the reset values. -/
theorem resetInputResetsBlock : Obligations.ResetInputResetsBlock := by
  unfold Obligations.ResetInputResetsBlock
  intro s hm
  exact ⟨_, step_reset hm, mtWord_hardwareReset _, rfl, rfl, rfl, rfl, rfl, rfl, rfl, rfl, rfl, rfl, rfl, rfl,
    keyWord_hardwareReset _, hostRead_status_hardwareReset _, hostRead_reg .id _, hostRead_reg .keyMax _⟩

/-- Settles O45: `State.hardwareReset` takes these fields from the state it resets (log entry 2). -/
theorem resetLeavesHost : Obligations.ResetLeavesHost := by
  unfold Obligations.ResetLeavesHost
  intro s t hm h
  obtain rfl : _ = t := by simpa [step_reset hm] using h
  simp

/-- Settles O46: the base case of `step_keeps_inv`, as `Reachable.inv` takes it. -/
theorem resetMeetsInvariant : Obligations.ResetMeetsInvariant := by
  unfold Obligations.ResetMeetsInvariant
  exact fun _ => inv_start

end Sys2Proof.Machine
